-- ==== Sys2Proof/Word.lean ====
section
/-! DEFINITION. The widths the spec gives its values (00_scope.md R8, R10; 10_state.md R20). -/

namespace Sys2Proof

/-- One row pattern, one transport register number or one transport value (R12, R60). -/
abbrev Byte := BitVec 8

/-- The register `SPD` (R27). -/
abbrev Speed := BitVec 16

/-- The wait counter `CNT` (R32). -/
abbrev Count := BitVec 32

/-- A row or column index: "every row and column index is a 3-bit value" (R55), `W = H = 8` (R8). -/
abbrev Idx := Fin 8

end Sys2Proof
end

