-- ==== Sys2Proof/Config.lean ====
section
/-! DEFINITION. The implementation parameters of 00_scope.md R8 to R10 and the free input vector of 40_debounce.md R91 and
70_reset_and_hazards.md R221. -/

namespace Sys2Proof

/-- The parameters of R8 and R9. `SETTLE_MS` is a field because R8 asks for it. -/
structure Config.Values where
  /-- `F_MS`, clock cycles per millisecond (R9, D4). -/
  fMs : Nat
  /-- `SETTLE_MS`, the debounce settle interval in milliseconds (R8). -/
  settleMs : Nat
  /-- `BASE_INTERVAL`, the tick delay at Speed 0 in milliseconds (R9). -/
  baseInterval : Nat
  /-- `MIN_INTERVAL`, the least tick delay in milliseconds (R9). -/
  minInterval : Nat
  /-- `SPEED_INC`, the increment of Speed per successful press (R9). -/
  speedInc : Nat
  deriving DecidableEq, Repr

/-- `CFG_REF` of R10: the numbers of the test vectors, with "no authority about the original device". -/
def Config.Values.ref : Config.Values :=
  { fMs := 1, settleMs := 30, baseInterval := 100, minInterval := 40, speedInc := 10 }

/-- `SETTLE_CYCLES = SETTLE_MS * F_MS` over the naturals (R9). -/
def Config.Values.settleCount (v : Config.Values) : Nat := v.settleMs * v.fMs

/-- Every constraint of R9, and the value R8 fixes for `SETTLE_MS`. -/
def Config.Values.wellFormed (v : Config.Values) : Bool :=
  decide (1 ≤ v.fMs) && decide (v.settleMs = 30) && decide (1 ≤ v.minInterval) &&
  decide (v.minInterval ≤ v.baseInterval) && decide (1 ≤ v.speedInc) && decide (7 * v.speedInc < 2 ^ 16) &&
  decide (v.settleCount < 2 ^ 32) && decide (v.baseInterval * v.fMs < 2 ^ 32)

/-- Parameters together with the proof that they meet R9. The defaults only show that such parameters exist. -/
structure Config.Params where
  /-- The numbers. -/
  values : Config.Values := Config.Values.ref
  /-- They meet R8 and R9. -/
  ok : values.wellFormed = true := by decide
  deriving Inhabited

/-- The parameters of this machine. The spec leaves them OPEN (R9, D4, D18, U8): an opaque constant, of which nothing is
known but that it meets R9 (log entry 4). -/
opaque Config.params : Config.Params

/-- The numbers of this machine's parameters. -/
def Config.values : Config.Values := Config.params.values

/-- The input vector `I = {rst, btn, rdy}` of the cycle with that number, wherever the stimulus trace gives none: a FREE
VALUE, "`any value`" of U5 and U6 (R91, R221; log entry 1). -/
opaque Config.freeInput : Nat → BitVec 3

end Sys2Proof
end

