-- ==== Sys2Proof/Syntax.lean ====
section
/-! DEFINITION. The twelve operations (30_encoding.md R70), the enumerated values (R74, R75), the input vector (R76) and the
shape of an opcode-table row (R72, R73). -/

namespace Sys2Proof

/-- The twelve operations of R70; none has an operand field (R77). -/
inductive Instr where
  /-- RESET (70_reset_and_hazards.md R200). -/
  | reset
  /-- SYNC (40_debounce.md R91). -/
  | sync
  /-- EDGE (40_debounce.md R93). -/
  | edge
  /-- POLL (40_debounce.md R95). -/
  | poll
  /-- CONFIRM (40_debounce.md R96, R97). -/
  | confirm
  /-- PRESS_CUT (41_game_fsm.md R118 to R120). -/
  | pressCut
  /-- PRESS_RESTART (41_game_fsm.md R124). -/
  | pressRestart
  /-- RENDER_P (43_renderer.md R162, R163). -/
  | renderP
  /-- SHIFT_ROT (42_shift_sequencer.md R143). -/
  | shiftRot
  /-- SHIFT_HOLD (42_shift_sequencer.md R144). -/
  | shiftHold
  /-- RENDER_T (43_renderer.md R162, R164). -/
  | renderT
  /-- WAIT (42_shift_sequencer.md R148). -/
  | wait
  deriving DecidableEq, Repr

/-- The seven named phases of `PH`; code 7 "cannot be written down" (R74, R78). -/
inductive Phase where
  | poll
  | confirm
  | press
  | renderP
  | shift
  | renderT
  | wait
  deriving DecidableEq, Repr

/-- The Game State `GS`: "enum {InGame, End}" (10_state.md R26). -/
inductive GameState where
  | inGame
  | ended
  deriving DecidableEq, Repr

/-- The debouncer's two states, a view of `PH` (10_state.md R31). -/
inductive DebounceState where
  | idle
  | confirming
  deriving DecidableEq, Repr

/-- The input vector of one cycle (R76). -/
structure Input where
  /-- The reset pin, active high. -/
  rst : Bool
  /-- What the first synchronizer flip-flop captures from `btn_n`: true is released, false is pressed. -/
  btn : Bool
  /-- `wr_ready`. -/
  rdy : Bool
  deriving DecidableEq, Repr

/-- The three formats of R73. -/
inductive Format where
  /-- Sequencer: selected by `SEL`. -/
  | S
  /-- Always: performed in every cycle with `rst = 0`. -/
  | A
  /-- Pin: selected by the input vector. -/
  | P
  deriving DecidableEq, Repr

/-- One row of the opcode table: which word it looks at, and the bits it asks for. For format P the word is `I[2:0]` with a
zero bit above it; for formats S and A it is `SEL[3:0]` (R72, R73). -/
structure OpcodeRow where
  /-- Which word is matched. -/
  format : Format
  /-- The value of the examined bits. -/
  bits : BitVec 4
  /-- The examined bits. -/
  mask : BitVec 4
  deriving DecidableEq, Repr

/-- Everything that selects the operations of one cycle: the input vector and the selection word (R71, R76). -/
structure CycleWord where
  /-- `I[2:0] = {rst, btn, rdy}`. -/
  inp : BitVec 3
  /-- `SEL[3:0] = {PH[2:0], GS}`. -/
  sel : BitVec 4
  deriving DecidableEq, Repr

/-- Why the decoder refuses. -/
inductive DecodeError where
  /-- `SEL = 111x` is reserved (R78, U1). -/
  | reservedSelection (sel : BitVec 4)
  deriving DecidableEq, Repr

end Sys2Proof
end

