-- ==== Sys2Proof/WellFormed.lean ====
section
/-! DEFINITION. The checks on terms a host can write down: operations, and the words that select them. The check on the
parameters is `Config.Values.wellFormed`, beside them. -/

namespace Sys2Proof

/-- "No operation has an immediate or an explicit operand" (R77): every operation is well formed. -/
def Instr.wellFormed (i : Instr) : Bool :=
  match i with
  | .reset | .sync | .edge | .poll | .confirm | .pressCut | .pressRestart | .renderP
  | .shiftRot | .shiftHold | .renderT | .wait => true

/-- The selection word is not the reserved `111x` (R78). -/
def selWellFormed (sel : BitVec 4) : Bool := sel.extractLsb' 1 3 != 7#3

/-- The words of a cycle select operations: the reset pin does so whatever `SEL` is (R73), otherwise `SEL` must not be
reserved (R78). -/
def CycleWord.wellFormed (w : CycleWord) : Bool := w.inp.getLsbD 2 || selWellFormed w.sel

end Sys2Proof
end

