-- ==== Sys2Proof/Decode.lean ====
section
/-! DEFINITION. Selection of the operations of a cycle (30_encoding.md R70 to R76), and after it the encoder, written from the
opcode table. -/

namespace Sys2Proof

/-- The code of a phase in `PH[2:0]` (R74). -/
def Phase.code : Phase → BitVec 3
  | .poll => 0b000#3
  | .confirm => 0b001#3
  | .press => 0b010#3
  | .renderP => 0b011#3
  | .shift => 0b100#3
  | .renderT => 0b101#3
  | .wait => 0b110#3

/-- The phase with that code; none for the reserved `0b111` (R74, R78). -/
def Phase.ofCode (c : BitVec 3) : Option Phase :=
  if c = 0b000#3 then some .poll
  else if c = 0b001#3 then some .confirm
  else if c = 0b010#3 then some .press
  else if c = 0b011#3 then some .renderP
  else if c = 0b100#3 then some .shift
  else if c = 0b101#3 then some .renderT
  else if c = 0b110#3 then some .wait
  else none

/-- `0 = InGame`, `1 = End` (R75). -/
def GameState.code : GameState → BitVec 1
  | .inGame => 0#1
  | .ended => 1#1

/-- The Game State with that code (R75). -/
def GameState.ofCode (c : BitVec 1) : GameState := if c = 1#1 then .ended else .inGame

/-- `0 = Idle`, `1 = Confirming` (R75). -/
def DebounceState.code : DebounceState → BitVec 1
  | .idle => 0#1
  | .confirming => 1#1

/-- `SEL[3:0] = {PH[2:0], GS}` (R71). -/
def selWord (ph : Phase) (gs : GameState) : BitVec 4 := ph.code ++ gs.code

/-- `I[2:0] = {rst, btn, rdy}` (R76). -/
def Input.vec (i : Input) : BitVec 3 := BitVec.ofBool i.rst ++ BitVec.ofBool i.btn ++ BitVec.ofBool i.rdy

/-- The input vector whose bits are `v` (R76). -/
def Input.ofVec (v : BitVec 3) : Input := { rst := v.getLsbD 2, btn := v.getLsbD 1, rdy := v.getLsbD 0 }

/-- The sequencer operation of a phase: PRESS and SHIFT are told apart by the Game State, the other phases do not look at it
(R70, R72). -/
def sequencerOp (ph : Phase) (gs : GameState) : Instr :=
  match ph, gs with
  | .poll, _ => .poll
  | .confirm, _ => .confirm
  | .press, .inGame => .pressCut
  | .press, .ended => .pressRestart
  | .renderP, _ => .renderP
  | .shift, .inGame => .shiftRot
  | .shift, .ended => .shiftHold
  | .renderT, _ => .renderT
  | .wait, _ => .wait

/-- The sequencer operation a selection word selects; `111x` is refused (R72, R78). -/
def decodeSel (sel : BitVec 4) : Except DecodeError Instr :=
  match Phase.ofCode (sel.extractLsb' 1 3) with
  | some ph => .ok (sequencerOp ph (GameState.ofCode (sel.extractLsb' 0 1)))
  | none => .error (.reservedSelection sel)

/-- The operation the reset pin selects, if it is asserted (R73). -/
def decodePin (inp : BitVec 3) : Option Instr := if inp.getLsbD 2 then some .reset else none

/-- RESET, or the one sequencer operation of the cycle (R70, R73). -/
def decodeMain (w : CycleWord) : Except DecodeError Instr :=
  match decodePin w.inp with
  | some i => .ok i
  | none => decodeSel w.sel

/-- The operations performed in every cycle with `rst = 0` (R70, R73). -/
def alwaysOps : List Instr := [.sync, .edge]

/-- All operations of one cycle. RESET "suppresses every other operation of that cycle" (R73). -/
def decode (w : CycleWord) : Except DecodeError (List Instr) :=
  match decodeMain w with
  | .ok .reset => .ok [.reset]
  | .ok i => .ok (alwaysOps ++ [i])
  | .error e => .error e

/-- The opcode table, row by row (R72, R73; opcode_table.json). -/
def opcodeRow : Instr → OpcodeRow
  | .reset => ⟨.P, 0x4#4, 0x4#4⟩
  | .sync => ⟨.A, 0x0#4, 0x0#4⟩
  | .edge => ⟨.A, 0x0#4, 0x0#4⟩
  | .poll => ⟨.S, 0x0#4, 0xE#4⟩
  | .confirm => ⟨.S, 0x2#4, 0xE#4⟩
  | .pressCut => ⟨.S, 0x4#4, 0xF#4⟩
  | .pressRestart => ⟨.S, 0x5#4, 0xF#4⟩
  | .renderP => ⟨.S, 0x6#4, 0xE#4⟩
  | .shiftRot => ⟨.S, 0x8#4, 0xF#4⟩
  | .shiftHold => ⟨.S, 0x9#4, 0xF#4⟩
  | .renderT => ⟨.S, 0xA#4, 0xE#4⟩
  | .wait => ⟨.S, 0xC#4, 0xE#4⟩

/-- Does the row select its operation: "`(SEL & mask) = match`" (R72); formats S and A need `rst = 0` as well, format P looks
at `I` (R73). -/
def OpcodeRow.selects (r : OpcodeRow) (w : CycleWord) : Bool :=
  match r.format with
  | .P => (w.inp.setWidth 4 &&& r.mask) == r.bits
  | .S | .A => !w.inp.getLsbD 2 && (w.sel &&& r.mask) == r.bits

/-- The examined bits of the row laid over the word `x`; the bits the row does not examine keep `x`'s value. -/
def OpcodeRow.overlay (r : OpcodeRow) (x : BitVec 4) : BitVec 4 := (x &&& ~~~r.mask) ||| r.bits

/-- The words that make the block perform `i`: its row's bits, and `w` wherever the row examines nothing. Formats S and A
also need the reset pin low (R73). -/
def encode (i : Instr) (w : CycleWord) : CycleWord :=
  match (opcodeRow i).format with
  | .P => { w with inp := ((opcodeRow i).overlay (w.inp.setWidth 4)).setWidth 3 }
  | .S | .A => { inp := w.inp &&& 0b011#3, sel := (opcodeRow i).overlay w.sel }

/-- The operation read from a table word. A word of at most three bits is an input vector `I`; a longer one is a selection
word `SEL`, whose bits above bit 3 must be zero (R72, R73, R76; log entry 9 on why one number can be both). -/
def decodeTableWord (nbits w : Nat) : Option Instr :=
  if nbits ≤ 3 then decodePin (BitVec.ofNat 3 w)
  else if w < 16 then (decodeSel (BitVec.ofNat 4 w)).toOption
  else none

end Sys2Proof
end

