-- ==== Sys2Proof/Machine/State.lean ====
section
/-! DEFINITION. The state of the block (10_state.md R20) with the model's own three fields for what surrounds it, the two
reason types, and the state after reset. -/

namespace Sys2Proof.Machine

/-- Faults: none. "The block raises no exception, trap or fault of any kind" (60_exceptions.md R180, R181), so the type has
no constructor, which is safe: no claim can rest on a fault. -/
inductive Fault where
  deriving DecidableEq, Repr

/-- Refusals. -/
inductive Refusal where
  /-- Raised by an arm of `exec` whose operation has no meaning yet; no arm does. Safe: it stops. -/
  | notModelled (mnemonic : String)
  /-- Raised for the reserved selection `111x` (30_encoding.md R78, U1: `refuse`). No `State` holds phase code 7, so `step`
  never answers it. Safe: it stops. -/
  | reservedSelection (sel : BitVec 4)
  deriving DecidableEq, Repr

/-- Byte-wide registers by number: the numbers strictly rising, each below 256. An unlisted number reads as no value. -/
abbrev Memory := List Host.Cell

/-- The eleven registers of R20, then the model's own fields `tx`, `stim` and `cycle` (log entries 1 to 3). -/
structure State where
  /-- `FB[0..7]`, the frame buffer: eight rows, column 0 in bit 7 (R21, R54). -/
  fb : Vector Byte 8
  /-- `AR`, the Active Row Index (R25). -/
  ar : Idx
  /-- `GS`, the Game State (R26). -/
  gs : GameState
  /-- `SPD`, the Speed (R27). -/
  spd : Speed
  /-- `PF`, the pending flag (R28). -/
  pf : Bool
  /-- `SY1`, the first synchronizer flip-flop (R29). -/
  sy1 : Bool
  /-- `SY2`, the synchronized line level: false is pressed (R29). -/
  sy2 : Bool
  /-- `PREV`, the synchronized level one cycle earlier (R29). -/
  prev : Bool
  /-- `PH`, the phase (R30). -/
  ph : Phase
  /-- `CNT`, the wait counter (R32). -/
  cnt : Count
  /-- `RI`, the renderer row index (R33). -/
  ri : Idx
  /-- MODEL'S OWN: the transport register space of 20_memory.md R50 (b), as accepted writes have filled it. -/
  tx : Memory
  /-- MODEL'S OWN: the stimulus trace still to come, the next cycle's input vector first (R79). -/
  stim : List Input
  /-- MODEL'S OWN: how many cycles were made; it draws the free input vector once `stim` is empty. -/
  cycle : Nat
  deriving DecidableEq, Repr

/-- The state after reset: the values of R20's table (R24 to R33, R200). The last three fields are the model's own. -/
def State.reset : State where
  fb := #v[0x00#8, 0x00#8, 0x00#8, 0x00#8, 0x00#8, 0x00#8, 0x00#8, 0x7E#8]
  ar := 7
  gs := .inGame
  spd := 0#16
  pf := false
  sy1 := true
  sy2 := true
  prev := true
  ph := .renderP
  cnt := 0#32
  ri := 0
  tx := []
  stim := []
  cycle := 0

end Sys2Proof.Machine
end

