-- ==== Sys2Proof/Machine/Operands.lean ====
section
/-! DEFINITION. What the operations read: cells and rows, the functions of a row (41_game_fsm.md R111 to R117, 42 R143,
43 R160), the counter loads (00_scope.md R9), and the input vector of the cycle. -/

namespace Sys2Proof.Machine

/-! ### Cells and rows (R12, R54) -/

/-- The eight columns, in scan order. -/
def columns : List Idx := [0, 1, 2, 3, 4, 5, 6, 7]

/-- The cell of column `c` of the pattern `p`: bit `7 - c` (R12). -/
def cell (p : Byte) (c : Idx) : Bool := p.getLsbD (7 - c.val)

/-- The pattern with just column `c` lit: `0x80 >> c` (R51). -/
def colBit (c : Idx) : Byte := 0x80#8 >>> c.val

/-- `colmask(lo, hi) = ((1 << (hi - lo + 1)) - 1) << (7 - hi)` in 8 bits, for `lo <= hi` (R12). -/
def colmask (lo hi : Idx) : Byte := ((1#8 <<< (hi.val - lo.val + 1)) - 1#8) <<< (7 - hi.val)

/-- The number of lit cells (R11). -/
def popcount (p : Byte) : Nat := columns.countP (cell p)

/-! ### Runs and the cut (R111 to R117) -/

/-- A run: its first and its last column (R111). -/
structure Run where
  /-- First column. -/
  lo : Idx
  /-- Last column. -/
  hi : Idx
  deriving DecidableEq, Repr

/-- `hi - lo + 1` (R111). -/
def Run.length (r : Run) : Nat := r.hi.val - r.lo.val + 1

/-- A run of `p`: columns `lo..hi` all lit, and no lit cell next to either end; column 7 and column 0 are not adjacent
(R111). -/
def isRun (p : Byte) (r : Run) : Bool :=
  decide (r.lo ≤ r.hi) &&
  columns.all (fun c => !(decide (r.lo ≤ c) && decide (c ≤ r.hi)) || cell p c) &&
  columns.all (fun c => !(decide (c.val + 1 = r.lo.val) || decide (c.val = r.hi.val + 1)) || !cell p c)

/-- What the scan of R112 carries from column to column. -/
structure Scan where
  /-- `best_len`. -/
  bestLen : Nat
  /-- `best_hi`, of meaning once `bestLen` is not 0. -/
  bestHi : Idx
  /-- `cur`. -/
  cur : Nat
  deriving DecidableEq, Repr

/-- One column of the scan: "`>=` lets a later run win a tie" (R112). -/
def scanColumn (p : Byte) (s : Scan) (c : Idx) : Scan :=
  if cell p c then
    if s.bestLen ≤ s.cur + 1 then { bestLen := s.cur + 1, bestHi := c, cur := s.cur + 1 }
    else { s with cur := s.cur + 1 }
  else { s with cur := 0 }

/-- The whole scan, from column 0 to column 7 (R112). -/
def scanRow (p : Byte) : Scan := columns.foldl (scanColumn p) { bestLen := 0, bestHi := 0, cur := 0 }

/-- `longest_run(p)`: "the run of greatest length", of several the one that ends at the highest column, none for the empty
row (R111), found by the scan of R112. -/
def longestRun (p : Byte) : Option Run :=
  if (scanRow p).bestLen = 0 then none
  else some { lo := ⟨(scanRow p).bestHi.val - ((scanRow p).bestLen - 1), by omega⟩, hi := (scanRow p).bestHi }

/-- `narrow(p)`: "Clear every cell outside that run"; the empty row stays empty (R113, D32). -/
def narrow (p : Byte) : Byte :=
  match longestRun p with
  | some r => colmask r.lo r.hi
  | none => 0x00#8

/-- `spawn(w) = (1 << w) - 1` in 8 bits: a bar of width `w` at the highest columns (R117). -/
def spawn (w : Nat) : Byte := (1#8 <<< w) - 1#8

/-- `rol8(p) = {p[6:0], p[7]}`: every cell one column towards column 0, column 0 to column 7 (R143, D16). -/
def rol8 (p : Byte) : Byte := p.extractLsb' 0 7 ++ p.extractLsb' 7 1

/-- The seed row: columns `1..W-2` lit (R122). -/
def seed : Byte := colmask 1 6

/-! ### Rows of a state -/

/-- A read of one row of the frame buffer; it has no side effect (R53). -/
def State.row (s : State) (r : Idx) : Byte := s.fb[r.val]

/-- `cell(r, c) = FB[r][7-c]` (R13, R21). -/
def State.cellAt (s : State) (r c : Idx) : Bool := cell (s.row r) c

/-- `row_bits(row)`: the byte `b` with `b[7-c] = cell(row, c)`, put together cell by cell; with the packed storage it is the
row itself (R160). -/
def State.rowBits (s : State) (r : Idx) : Byte :=
  columns.foldl (fun b c => if s.cellAt r c then b ||| colBit c else b) 0x00#8

/-- `support(a)`: the row `a + 1`, and under row 7 "a virtual all-lit floor" (R114, R55, D13). -/
def State.support (s : State) (a : Idx) : Byte :=
  if h : a.val < 7 then s.row ⟨a.val + 1, by omega⟩ else 0xFF#8

/-- `surv = narrow(FB[AR]) & support(AR)` (R115). -/
def State.survivors (s : State) : Byte := narrow (s.row s.ar) &&& s.support s.ar

/-- The row index one lower, `a - 1`; the operations use it for `a != 0` only (R55, R120). -/
def rowAbove (a : Idx) : Idx := ⟨a.val - 1, by omega⟩

/-- The debouncer's state: a view of `PH` (R31). -/
def State.debounceState (s : State) : DebounceState := if s.ph = .confirm then .confirming else .idle

/-! ### Counter loads and the speed ramp (R9, R125, R126) -/

/-- `interval_ms(s)`: `BASE_INTERVAL - s` where that is at least `MIN_INTERVAL`, else `MIN_INTERVAL`, over the naturals
(R9, R126). -/
def intervalMs (v : Config.Values) (spd : Speed) : Nat :=
  if spd.toNat ≤ v.baseInterval ∧ v.minInterval ≤ v.baseInterval - spd.toNat then v.baseInterval - spd.toNat
  else v.minInterval

/-- `interval_cycles(s) = interval_ms(s) * F_MS` over the naturals (R9). -/
def intervalCount (v : Config.Values) (spd : Speed) : Nat := intervalMs v spd * v.fMs

/-- `interval_cycles(s)` as loaded into `CNT`; R9's constraints keep it below `2^32` (R147). -/
def intervalCycles (v : Config.Values) (spd : Speed) : Count := BitVec.ofNat 32 (intervalCount v spd)

/-- `SETTLE_CYCLES` as loaded into `CNT`; R9's constraints keep it below `2^32` (R95). -/
def settleCycles (v : Config.Values) : Count := BitVec.ofNat 32 v.settleCount

/-- `SPEED_INC` in the width of `SPD` (R120, R125). -/
def speedIncrement (v : Config.Values) : Speed := BitVec.ofNat 16 v.speedInc

/-! ### The input vector -/

/-- The input vector of the cycle `k` cycles ahead: from the stimulus trace, and past its end a free value (R79, R91, R221;
log entry 1). -/
def State.inputAt (s : State) (k : Nat) : Input :=
  match s.stim[k]? with
  | some i => i
  | none => Input.ofVec (Config.freeInput (s.cycle + k))

/-- The input vector sampled at the coming edge (R14). -/
def State.input (s : State) : Input := s.inputAt 0

/-- `SEL[3:0]`, "formed from the state before the clock edge" (R71). -/
def State.sel (s : State) : BitVec 4 := selWord s.ph s.gs

/-- The words that select the operations of the coming cycle (R71, R76). -/
def State.fetch (s : State) : CycleWord := { inp := s.input.vec, sel := s.sel }

end Sys2Proof.Machine
end

