-- ==== Sys2Proof/Machine/Flags.lean ====
section
/-! DEFINITION. The one-bit conditions: the falling edge, the clearing cycle, the next pending flag, the Press Event, and the
transport's handshake (40_debounce.md R93 to R100, 20_memory.md R60, 43_renderer.md R166). -/

namespace Sys2Proof.Machine

/-- `fall = (PREV = 1) and (SY2 = 0)` (R93). -/
def State.fall (s : State) : Bool := s.prev && !s.sy2

/-- `clear_now = (PH = CONFIRM) and (CNT = 0)` (R97). -/
def State.clearNow (s : State) : Bool := decide (s.ph = .confirm) && decide (s.cnt = 0#32)

/-- `PF' = 0 if clear_now, else 1 if fall, else PF` (R98). -/
def State.nextPf (s : State) : Bool := if s.clearNow then false else if s.fall then true else s.pf

/-- `press_ev = (rst = 0) and (PH = CONFIRM) and (CNT = 0) and (SY2 = 0)` (R100). -/
def State.pressEv (s : State) : Bool := !s.input.rst && s.clearNow && !s.sy2

/-- `rendering = (rst = 0) and (PH = RENDER_P or PH = RENDER_T)` (R166). -/
def State.rendering (s : State) : Bool :=
  !s.input.rst && (decide (s.ph = .renderP) || decide (s.ph = .renderT))

/-- A write is accepted "exactly when `wr_valid = 1` and `rdy = 1` at the clock edge with `rst = 0`" (R60). -/
def State.accepts (s : State) : Bool := s.rendering && s.input.rdy

end Sys2Proof.Machine
end

