-- ==== Sys2Proof/Machine/Ops.lean ====
section
/-! DEFINITION. The named operations over the frame buffer, the registers and the transport register space; taking the edge
interrupt; the transfers of the main loop that several operations share. -/

namespace Sys2Proof.Machine

/-! ### The transport register space (R50 b) -/

/-- The byte last written to a register; none where nothing was (log entry 2). -/
def Memory.read : Memory → Nat → Option Byte
  | [], _ => none
  | (k, v) :: rest, a => if k = a then some v else Memory.read rest a

/-- A write to one register, in number order. -/
def Memory.write : Memory → Nat → Byte → Memory
  | [], a, v => [(a, v)]
  | (k, w) :: rest, a, v =>
    if a < k then (a, v) :: (k, w) :: rest
    else if a = k then (a, v) :: rest
    else (k, w) :: Memory.write rest a v

/-- The numbers rise strictly from `lo` on and are below 256. -/
def Memory.wfFrom : Nat → Memory → Bool
  | _, [] => true
  | lo, (k, _) :: rest => decide (lo ≤ k) && decide (k < 256) && Memory.wfFrom (k + 1) rest

/-- The canonical form: strictly rising 8-bit register numbers. No entry can equal what an unlisted register reads as, since
that is no value. -/
def Memory.wf (m : Memory) : Bool := Memory.wfFrom 0 m

/-! ### One update per register -/

def State.setFb (s : State) (fb : Vector Byte 8) : State := { s with fb := fb }
def State.setAr (s : State) (a : Idx) : State := { s with ar := a }
def State.setGs (s : State) (g : GameState) : State := { s with gs := g }
def State.setSpd (s : State) (v : Speed) : State := { s with spd := v }
def State.setPf (s : State) (b : Bool) : State := { s with pf := b }
/-- The three synchronizer flip-flops together (R91). -/
def State.setSync (s : State) (sy1 sy2 prev : Bool) : State := { s with sy1 := sy1, sy2 := sy2, prev := prev }
def State.setPh (s : State) (p : Phase) : State := { s with ph := p }
def State.setCnt (s : State) (c : Count) : State := { s with cnt := c }
def State.setRi (s : State) (r : Idx) : State := { s with ri := r }
def State.setTx (s : State) (m : Memory) : State := { s with tx := m }
def State.setEnv (s : State) (stim : List Input) (cycle : Nat) : State := { s with stim := stim, cycle := cycle }

/-- A write of one row of the frame buffer (R13). -/
def State.setRow (s : State) (r : Idx) (v : Byte) : State := s.setFb (s.fb.set r.val v)

/-! ### The frame buffer's contract (R51, R52) -/

/-- `set(row, col, value)` on a pattern (R51). -/
def setCol (p : Byte) (c : Idx) (value : Bool) : Byte := (p &&& ~~~colBit c) ||| (if value then colBit c else 0x00#8)

/-- `set(row, col, value)` (R51). -/
def State.setCell (s : State) (r c : Idx) (value : Bool) : State := s.setRow r (setCol (s.row r) c value)

/-- `clear()`: all cells zero in one step (R52). -/
def State.clearFb (s : State) : State := s.setFb (Vector.replicate 8 0x00#8)

/-- `init_game`: the frame cleared and the bar seeded, Speed 0, Active Row 7, `InGame`; nothing else (R123). -/
def State.initGame (s : State) : State := (((s.clearFb.setRow 7 seed).setSpd 0#16).setAr 7).setGs .inGame

/-! ### The edge interrupt (60_exceptions.md R182 to R184) -/

/-- Taking the interrupt: "exactly `PF <- 1`"; nothing is saved, no vector is fetched, and there is no return (R183,
R184). -/
def State.takeEdge (s : State) : State := s.setPf true

/-! ### Shared transfers of the main loop (R140) -/

/-- To a render phase, from its first row: `PH <- target ; RI <- 0` (R121, R143, R144). -/
def State.startRender (s : State) (target : Phase) : State := (s.setPh target).setRi 0

/-- One count of a wait: `CNT <- CNT - 1` (R96, R148). -/
def State.countDown (s : State) : State := s.setCnt (s.cnt - 1#32)

/-- The transport register of a row: `r + 1` (R58). -/
def regNumber (r : Idx) : Byte := BitVec.ofNat 8 r.val + 1#8

/-- `TxWrite(reg, val)`: an accepted write (R13, R60). -/
def State.txWrite (s : State) (reg val : Byte) : State := s.setTx (s.tx.write reg.toNat val)

/-- The common part of RENDER_P and RENDER_T: with `rdy = 1` the write on offer is accepted and the pass goes on to the next
row, or after row 7 with `last`; with `rdy = 0` nothing changes (R162). -/
def State.renderStep (s : State) (last : State → State) : State :=
  if s.input.rdy then
    if s.ri = 7 then last (s.txWrite (regNumber s.ri) (s.rowBits s.ri))
    else (s.txWrite (regNumber s.ri) (s.rowBits s.ri)).setRi (s.ri + 1)
  else s

/-! ### Joining the operations of one cycle (R13, R63, R186) -/

/-- The writes of the operations of one cycle, each computed from the state `s` before the edge: the synchronizer is SYNC's
to write, `PF` is EDGE's but in the clearing cycle, where the sequencer's clear wins (R98), and everything else is the
sequencer's (R186). -/
def joinWrites (s seq snc edg : State) : State :=
  (seq.setSync snc.sy1 snc.sy2 snc.prev).setPf (if s.clearNow then seq.pf else edg.pf)

/-- The edge itself: the cycle's input vector is used up. -/
def State.advance (s : State) : State := s.setEnv s.stim.tail (s.cycle + 1)

/-- Go on with a next state, or stop as the outcome says. -/
def andThen (o : Host.Outcome State Fault Refusal) (f : State → Host.Outcome State Fault Refusal) :
    Host.Outcome State Fault Refusal :=
  match o with
  | .next s => f s
  | .fault r => .fault r
  | .refused r => .refused r

end Sys2Proof.Machine
end

