-- ==== Sys2Proof/Machine/Debounce.lean ====
section
/-! DEFINITION. The debounce synchronizer: SYNC, EDGE, POLL, CONFIRM (40_debounce.md). Each meaning is the operation's own
effect on the state before the edge; `Machine/Cycle.lean` joins the operations of a cycle. -/

namespace Sys2Proof.Machine

/-- SYNC: `SY1 <- btn ; SY2 <- SY1 ; PREV <- SY2` (R91). -/
def execSync (s : State) : Host.Outcome State Fault Refusal := .next (s.setSync s.input.btn s.sy1 s.sy2)

/-- EDGE: `if fall and not clear_now then PF <- 1` (R93). -/
def execEdge (s : State) : Host.Outcome State Fault Refusal :=
  .next (if s.fall && !s.clearNow then s.takeEdge else s)

/-- POLL under the parameters `v` (R95). -/
def pollWith (v : Config.Values) (s : State) : State :=
  if s.pf then (s.setPh .confirm).setCnt (settleCycles v) else s.setPh .shift

/-- POLL: with `PF = 1` to CONFIRM and the settle count loaded, else to SHIFT; `PF` stays (R95). -/
def execPoll (s : State) : Host.Outcome State Fault Refusal := .next (pollWith Config.values s)

/-- CONFIRM: a counting cycle while `CNT != 0` (R96), then one sample of `SY2`, `PF <- 0` whichever branch follows, and
PRESS for a line still low, else SHIFT (R97). -/
def execConfirm (s : State) : Host.Outcome State Fault Refusal :=
  .next (if s.cnt = 0#32 then (s.setPf false).setPh (if s.sy2 then .shift else .press) else s.countDown)

end Sys2Proof.Machine
end

