-- ==== Sys2Proof/Machine/Game.lean ====
section
/-! DEFINITION. The game-state control FSM: PRESS_CUT, PRESS_RESTART (41_game_fsm.md). -/

namespace Sys2Proof.Machine

/-- The outcomes of a cut that end the game: nothing survives, or row 0 is reached (R119). -/
def State.cutEnds (s : State) : Bool := decide (s.survivors = 0x00#8) || decide (s.ar = 0)

/-- PRESS_CUT with the increment of the parameters `v`: `FB[AR] <- surv` in every outcome (R118); then the game ends (R119), or
Speed and the Active Row step on and a bar of the surviving width replaces the row above (R120); then the re-render (R121). -/
def pressCutWith (v : Config.Values) (s : State) : State :=
  let cut := s.setRow s.ar s.survivors
  let played :=
    if s.cutEnds then cut.setGs .ended
    else ((cut.setRow (rowAbove s.ar) (spawn (popcount s.survivors))).setAr (rowAbove s.ar)).setSpd
      (s.spd + speedIncrement v)
  played.startRender .renderP

/-- PRESS_CUT (R118 to R121). -/
def execPressCut (s : State) : Host.Outcome State Fault Refusal := .next (pressCutWith Config.values s)

/-- PRESS_RESTART: `init_game`, then the re-render (R124, R121). -/
def execPressRestart (s : State) : Host.Outcome State Fault Refusal := .next (s.initGame.startRender .renderP)

end Sys2Proof.Machine
end

