-- ==== Sys2Proof/Machine/Renderer.lean ====
section
/-! DEFINITION. The row-pattern renderer: RENDER_P, RENDER_T (43_renderer.md). -/

namespace Sys2Proof.Machine

/-- RENDER_P: after the last row to SHIFT (R162, R163). -/
def execRenderP (s : State) : Host.Outcome State Fault Refusal :=
  .next (s.renderStep fun t => (t.setPh .shift).setRi 0)

/-- RENDER_T under the parameters `v` (R162, R164, R147). -/
def renderTWith (v : Config.Values) (s : State) : State :=
  s.renderStep fun t => ((t.setPh .wait).setRi 0).setCnt (intervalCycles v s.spd)

/-- RENDER_T: after the last row to WAIT, with the tick delay loaded (R162, R164, R147). -/
def execRenderT (s : State) : Host.Outcome State Fault Refusal := .next (renderTWith Config.values s)

end Sys2Proof.Machine
end

