-- ==== Sys2Proof/Machine/Reset.lean ====
section
/-! DEFINITION. RESET (70_reset_and_hazards.md R200). -/

namespace Sys2Proof.Machine

/-- RESET: "every register of the block takes its reset value". What the transport holds is outside the block and stays
(R204), and so does the stimulus trace. -/
def execReset (s : State) : Host.Outcome State Fault Refusal :=
  .next ((State.reset.setTx s.tx).setEnv s.stim s.cycle)

end Sys2Proof.Machine
end

