-- ==== Sys2Proof/Machine/Sequencer.lean ====
section
/-! DEFINITION. The row-shift sequencer: SHIFT_ROT, SHIFT_HOLD, WAIT (42_shift_sequencer.md). -/

namespace Sys2Proof.Machine

/-- SHIFT_ROT: the active row rotates one column towards column 0, then the tick's render (R143). -/
def execShiftRot (s : State) : Host.Outcome State Fault Refusal :=
  .next ((s.setRow s.ar (rol8 (s.row s.ar))).startRender .renderT)

/-- SHIFT_HOLD: the frozen frame is rendered again (R144). -/
def execShiftHold (s : State) : Host.Outcome State Fault Refusal := .next (s.startRender .renderT)

/-- WAIT: `if CNT != 0 then CNT <- CNT - 1 else PH <- POLL` (R148). -/
def execWait (s : State) : Host.Outcome State Fault Refusal :=
  .next (if s.cnt = 0#32 then s.setPh .poll else s.countDown)

end Sys2Proof.Machine
end

