-- ==== Sys2Proof/Machine/Dispatch.lean ====
section
/-! DEFINITION. The meaning of each operation: its own effect on the state before the edge. -/

namespace Sys2Proof.Machine

def exec (i : Instr) (s : State) : Host.Outcome State Fault Refusal :=
  match i with
  | .reset => Sys2Proof.Machine.execReset s
  | .sync => Sys2Proof.Machine.execSync s
  | .edge => Sys2Proof.Machine.execEdge s
  | .poll => Sys2Proof.Machine.execPoll s
  | .confirm => Sys2Proof.Machine.execConfirm s
  | .pressCut => Sys2Proof.Machine.execPressCut s
  | .pressRestart => Sys2Proof.Machine.execPressRestart s
  | .renderP => Sys2Proof.Machine.execRenderP s
  | .shiftRot => Sys2Proof.Machine.execShiftRot s
  | .shiftHold => Sys2Proof.Machine.execShiftHold s
  | .renderT => Sys2Proof.Machine.execRenderT s
  | .wait => Sys2Proof.Machine.execWait s

end Sys2Proof.Machine
end

