-- ==== Sys2Proof/Machine/Cycle.lean ====
section
/-! DEFINITION. One clock cycle: which operations it performs and how their writes are joined (00_scope.md R13, R14;
30_encoding.md R70, R73); and how a chosen operation is placed where the next cycle selects it. -/

namespace Sys2Proof.Machine

/-- A cycle with `rst = 0` whose sequencer operation is `i`: SYNC, EDGE and `i`, each from the state before the edge (R70,
R73, R152). -/
def cycleWith (i : Instr) (s : State) : Host.Outcome State Fault Refusal :=
  andThen (exec .sync s) fun snc =>
    andThen (exec .edge s) fun edg =>
      andThen (exec i s) fun seq => .next (joinWrites s seq snc edg).advance

/-- One cycle. RESET "suppresses every other operation of that cycle" (R73, R200). -/
def runCycle (s : State) : Host.Outcome State Fault Refusal :=
  match decodeMain s.fetch with
  | .ok .reset => andThen (exec .reset s) fun t => .next t.advance
  | .ok i => cycleWith i s
  | .error (.reservedSelection sel) => .refused (.reservedSelection sel)

/-- The input vector of the coming cycle becomes `i`; the rest of the trace stays. -/
def State.placeInput (s : State) (i : Input) : State := s.setEnv (i :: s.stim.tail) s.cycle

/-- The vector a placed selection word runs under: the trace's own with the reset pin low, and with no trace "button
released, transport ready" (R79 `idle`; log entry 10). -/
def State.runningInput (s : State) : Input :=
  match s.stim with
  | i :: _ => { i with rst := false }
  | [] => { rst := false, btn := true, rdy := true }

/-- The words of a table row placed where the next cycle selects its operations: an input vector on the pins, or a selection
word in `PH` and `GS`. No state holds the reserved `111x`: it leaves `s` as it is (log entry 10). -/
def State.placeWord (s : State) (nbits w : Nat) : State :=
  if nbits ≤ 3 then s.placeInput (Input.ofVec (BitVec.ofNat 3 w))
  else
    match Phase.ofCode ((BitVec.ofNat 4 w).extractLsb' 1 3) with
    | some ph => ((s.setPh ph).setGs (GameState.ofCode ((BitVec.ofNat 4 w).extractLsb' 0 1))).placeInput s.runningInput
    | none => s

end Sys2Proof.Machine
end

