-- ==== Sys2Proof/Machine/Step.lean ====
section
/-! DEFINITION. The step: one clock cycle. -/

namespace Sys2Proof.Machine

/-- One rising edge of `clk` (00_scope.md R14). -/
def step (s : State) : Host.Outcome State Fault Refusal := runCycle s

/-- `s` with the given table word placed where the next step selects its operation (log entry 10). -/
def State.withFetchWord (s : State) (nbits w : Nat) : State := s.placeWord nbits w

end Sys2Proof.Machine
end

