-- ==== Sys2Proof/Machine/Listing.lean ====
section
/-! DEFINITION. The whole step in one piece, as 42_shift_sequencer.md R152 lists it: a second description of the block,
"given so that a model can be written, and checked against" it. The step of `Machine/Step.lean` does not use it. It is
written over the cut, the support row, the spawned bar and the counter loads of `Machine/Operands.lean`, as R152 is, and
over nothing else of the machine. -/

namespace Sys2Proof.Machine

/-- `init_game` (R123). -/
def listingInitGame (s : State) : State :=
  { s with fb := #v[0x00#8, 0x00#8, 0x00#8, 0x00#8, 0x00#8, 0x00#8, 0x00#8, 0x7E#8], spd := 0#16, ar := 7, gs := .inGame }

/-- The main-loop part of R152: `case PH of ...`. Row writes go to the frame buffer before the edge. -/
def listingMain (v : Config.Values) (s : State) (rdy : Bool) : State :=
  match s.ph with
  | .poll =>
    if s.pf then { s with ph := .confirm, cnt := settleCycles v } else { s with ph := .shift }
  | .confirm =>
    if s.cnt ≠ 0#32 then { s with cnt := s.cnt - 1#32 }
    else if s.sy2 = false then { s with ph := .press }
    else { s with ph := .shift }
  | .press =>
    match s.gs with
    | .inGame =>
      let surv := narrow (s.row s.ar) &&& s.support s.ar
      let fb := s.fb.set s.ar.val surv
      if surv = 0x00#8 ∨ s.ar = 0 then { s with fb := fb, gs := .ended, ph := .renderP, ri := 0 }
      else
        { s with
          fb := fb.set (s.ar.val - 1) (spawn (popcount surv)) (by omega)
          spd := s.spd + speedIncrement v
          ar := s.ar - 1
          ph := .renderP
          ri := 0 }
    | .ended => { listingInitGame s with ph := .renderP, ri := 0 }
  | .renderP =>
    if rdy then (if s.ri ≠ 7 then { s with ri := s.ri + 1 } else { s with ri := 0, ph := .shift }) else s
  | .shift =>
    match s.gs with
    | .inGame => { s with fb := s.fb.set s.ar.val ((s.row s.ar).rotateLeft 1), ph := .renderT, ri := 0 }
    | .ended => { s with ph := .renderT, ri := 0 }
  | .renderT =>
    if rdy then
      (if s.ri ≠ 7 then { s with ri := s.ri + 1 }
       else { s with ri := 0, ph := .wait, cnt := intervalCycles v s.spd })
    else s
  | .wait => if s.cnt ≠ 0#32 then { s with cnt := s.cnt - 1#32 } else { s with ph := .poll }

/-- `step(S, (rst, btn, rdy))` of R152: the eleven registers after the edge; the model's own fields stay. -/
def listingStep (v : Config.Values) (s : State) (i : Input) : State :=
  if i.rst then { State.reset with tx := s.tx, stim := s.stim, cycle := s.cycle }
  else
    let fall := s.prev = true ∧ s.sy2 = false
    let clearNow := s.ph = .confirm ∧ s.cnt = 0#32
    { listingMain v s i.rdy with
      sy1 := i.btn
      sy2 := s.sy1
      prev := s.sy2
      pf := if clearNow then false else if fall then true else s.pf }

end Sys2Proof.Machine
end

