-- ==== Sys2Proof/Machine/Outputs.lean ====
section
/-! DEFINITION. The output pins and the observation log (43_renderer.md R166, 40_debounce.md R100, 30_encoding.md R76, R80;
70_reset_and_hazards.md R224). -/

namespace Sys2Proof.Machine

/-- The output vector `O` of R76. -/
structure Outputs where
  /-- `press_ev`. -/
  pressEv : Bool
  /-- `wr_valid`. -/
  wrValid : Bool
  /-- `wr_reg[7:0]`. -/
  wrReg : Byte
  /-- `wr_data[7:0]`. -/
  wrData : Byte
  deriving DecidableEq, Repr

/-- The outputs: functions of the state before the edge and of `rst`; outside a render phase and during reset the transport
outputs are gated to zero (R166, R100). -/
def State.outputs (s : State) : Outputs where
  pressEv := s.pressEv
  wrValid := s.rendering
  wrReg := if s.rendering then regNumber s.ri else 0x00#8
  wrData := if s.rendering then s.rowBits s.ri else 0x00#8

/-- `O[17:0] = {press_ev, wr_valid, wr_reg[7:0], wr_data[7:0]}` (R76). -/
def Outputs.vec (o : Outputs) : BitVec 18 :=
  BitVec.ofBool o.pressEv ++ (BitVec.ofBool o.wrValid ++ (o.wrReg ++ o.wrData))

/-- The pair `{wr_reg, wr_data}` as one word (R77). -/
def Outputs.pair (o : Outputs) : BitVec 16 := o.wrReg ++ o.wrData

/-- One event of the observation log (R80). -/
inductive Event where
  /-- `W rr dd`: an accepted write of `dd` to register `rr`. -/
  | write (reg data : Byte)
  /-- `P`: a cycle with `press_ev = 1`. -/
  | press
  deriving DecidableEq, Repr

/-- The events of the coming cycle (R80). -/
def State.events (s : State) : List Event :=
  if s.accepts then [.write s.outputs.wrReg s.outputs.wrData]
  else if s.pressEv then [.press]
  else []

/-- The observation log of the next `n` cycles, in cycle order (R80, R224). -/
def eventLog : Nat → State → List Event
  | 0, _ => []
  | n + 1, s =>
    s.events ++
      match step s with
      | .next t => eventLog n t
      | .fault _ => []
      | .refused _ => []

/-- The outcome an operation takes, where it branches (R80). -/
inductive Branch where
  | reset
  | pollStart
  | pollIdle
  | confirmCount
  | confirmPress
  | confirmNoise
  | pressCutDescend
  | pressCutEndEmpty
  | pressCutEndRow0
  | pressRestart
  | renderPStall
  | renderPWrite
  | renderPLast
  | shiftRot
  | shiftHold
  | renderTStall
  | renderTWrite
  | renderTLast
  | waitCount
  | waitExit
  deriving DecidableEq, Repr

/-- The operation of the coming cycle with its outcome (R80, R119, R120). -/
def State.branch (s : State) : Branch :=
  if s.input.rst then .reset
  else
    match sequencerOp s.ph s.gs with
    | .poll => if s.pf then .pollStart else .pollIdle
    | .confirm => if s.cnt = 0#32 then (if s.sy2 then .confirmNoise else .confirmPress) else .confirmCount
    | .pressCut =>
      if s.survivors = 0x00#8 then .pressCutEndEmpty else if s.ar = 0 then .pressCutEndRow0 else .pressCutDescend
    | .pressRestart => .pressRestart
    | .renderP => if s.input.rdy then (if s.ri = 7 then .renderPLast else .renderPWrite) else .renderPStall
    | .shiftRot => .shiftRot
    | .shiftHold => .shiftHold
    | .renderT => if s.input.rdy then (if s.ri = 7 then .renderTLast else .renderTWrite) else .renderTStall
    | .wait => if s.cnt = 0#32 then .waitExit else .waitCount
    | .reset | .sync | .edge => .reset

/-- The name of an outcome (R80). -/
def Branch.mnemonic : Branch → String
  | .reset => "RESET"
  | .pollStart => "POLL.start"
  | .pollIdle => "POLL.idle"
  | .confirmCount => "CONFIRM.count"
  | .confirmPress => "CONFIRM.press"
  | .confirmNoise => "CONFIRM.noise"
  | .pressCutDescend => "PRESS_CUT.descend"
  | .pressCutEndEmpty => "PRESS_CUT.end_empty"
  | .pressCutEndRow0 => "PRESS_CUT.end_row0"
  | .pressRestart => "PRESS_RESTART"
  | .renderPStall => "RENDER_P.stall"
  | .renderPWrite => "RENDER_P.write"
  | .renderPLast => "RENDER_P.last"
  | .shiftRot => "SHIFT_ROT"
  | .shiftHold => "SHIFT_HOLD"
  | .renderTStall => "RENDER_T.stall"
  | .renderTWrite => "RENDER_T.write"
  | .renderTLast => "RENDER_T.last"
  | .waitCount => "WAIT.count"
  | .waitExit => "WAIT.exit"

/-- The trace line of the coming cycle: `X`, or `X + EDGE` where `fall` is true beside it (R80). -/
def State.mnemonic (s : State) : String :=
  s.branch.mnemonic ++ (if s.fall && !s.input.rst then " + EDGE" else "")

/-- A phase's name (R74). -/
def phaseName : Phase → String
  | .poll => "POLL"
  | .confirm => "CONFIRM"
  | .press => "PRESS"
  | .renderP => "RENDER_P"
  | .shift => "SHIFT"
  | .renderT => "RENDER_T"
  | .wait => "WAIT"

/-- One hexadecimal digit. -/
def hexDigit (n : Nat) : Char := "0123456789ABCDEF".toList.getD n '0'

/-- A byte as two hexadecimal digits. -/
def hexByte (b : Byte) : String := String.ofList [hexDigit (b.toNat / 16), hexDigit (b.toNat % 16)]

/-- A bit as a digit. -/
def bitDigit (b : Bool) : String := if b then "1" else "0"

/-- One line of the observation log (R80). -/
def Event.line : Event → String
  | .write reg data => "W " ++ hexByte reg ++ " " ++ hexByte data
  | .press => "P"

/-- The state line of R80. -/
def State.line (s : State) : String :=
  "PH=" ++ phaseName s.ph ++ " CNT=" ++ toString s.cnt.toNat ++ " RI=" ++ toString s.ri.val ++
  " SY=" ++ bitDigit s.sy1 ++ bitDigit s.sy2 ++ bitDigit s.prev ++ " PF=" ++ bitDigit s.pf ++
  " AR=" ++ toString s.ar.val ++ " GS=" ++ bitDigit (decide (s.gs = .ended)) ++ " SPD=" ++ toString s.spd.toNat ++
  " FB=" ++ String.intercalate " " (columns.map fun r => hexByte (s.row r))

end Sys2Proof.Machine
end

