-- ==== Sys2Proof/Machine/Trace.lean ====
section
/-! DEFINITION. Stimulus traces, the block's programs (30_encoding.md R79). -/

namespace Sys2Proof.Machine

/-- One item of a stimulus trace (R79). -/
inductive TraceItem where
  /-- `I rst btn rdy xN`. -/
  | vector (i : Input) (n : Nat)
  /-- `reset`. -/
  | reset
  /-- `idle N`: button released, transport ready. -/
  | idle (n : Nat)
  /-- `hold N`: button pressed, transport ready. -/
  | hold (n : Nat)
  /-- `stall N`: button released, transport not ready. -/
  | stall (n : Nat)
  /-- `bounce a b c ...`: alternating runs starting with pressed. -/
  | bounce (lengths : List Nat)
  /-- `until PHASE`: `idle 1` until the phase is reached. -/
  | untilPhase (target : Phase)
  /-- `hold-until PHASE`: `hold 1` until the phase is reached. -/
  | holdUntil (target : Phase)
  deriving DecidableEq, Repr

/-- The vector of `idle`. -/
def idleInput : Input := { rst := false, btn := true, rdy := true }

/-- The vector of `hold`. -/
def holdInput : Input := { rst := false, btn := false, rdy := true }

/-- The alternating runs of `bounce`, the first one pressed if `pressed` (R79). -/
def bounceInputs : Bool → List Nat → List Input
  | _, [] => []
  | pressed, n :: rest => List.replicate n (if pressed then holdInput else idleInput) ++ bounceInputs (!pressed) rest

/-- The input vectors an item stands for; none for the two items that look at the state (R79). -/
def TraceItem.expand : TraceItem → Option (List Input)
  | .vector i n => some (List.replicate n i)
  | .reset => some [{ rst := true, btn := true, rdy := false }]
  | .idle n => some (List.replicate n idleInput)
  | .hold n => some (List.replicate n holdInput)
  | .stall n => some (List.replicate n { rst := false, btn := true, rdy := false })
  | .bounce lengths => some (bounceInputs true lengths)
  | .untilPhase _ => none
  | .holdUntil _ => none

/-- Apply input vectors, one cycle each. -/
def applyInputs : List Input → State → Host.Outcome State Fault Refusal
  | [], s => .next s
  | i :: rest, s => andThen (step (s.setEnv [i] s.cycle)) (applyInputs rest)

/-- Apply one vector until a phase is reached, "zero times if it already has" (R79), for at most `fuel` cycles
(log entry 12). -/
def applyUntil (i : Input) (target : Phase) : Nat → State → Host.Outcome State Fault Refusal
  | 0, s => .next s
  | fuel + 1, s =>
    if s.ph = target then .next s
    else andThen (step (s.setEnv [i] s.cycle)) (applyUntil i target fuel)

/-- Apply one item (R79). -/
def applyItem (fuel : Nat) (item : TraceItem) (s : State) : Host.Outcome State Fault Refusal :=
  match item with
  | .untilPhase target => applyUntil idleInput target fuel s
  | .holdUntil target => applyUntil holdInput target fuel s
  | other => applyInputs (other.expand.getD []) s

/-- Apply a stimulus trace (R79). -/
def applyTrace (fuel : Nat) : List TraceItem → State → Host.Outcome State Fault Refusal
  | [], s => .next s
  | item :: rest, s => andThen (applyItem fuel item s) (applyTrace fuel rest)

end Sys2Proof.Machine
end

