-- ==== Sys2Proof/Safety.lean ====
section
/-! DEFINITION. The terms claims are stated in: runs, what a frame keeps, and the invariants of 10_state.md section 7. -/

namespace Sys2Proof.Machine

/-! ### Runs (70_reset_and_hazards.md R224) -/

/-- `n` cycles from `s` end in `t`, without a fault or a refusal on the way. -/
def runsTo : State → Nat → State → Prop
  | s, 0, t => t = s
  | s, n + 1, t => ∃ u, step s = .next u ∧ runsTo u n t

/-- No reset in the next `n` cycles. -/
abbrev noReset (s : State) (n : Nat) : Prop := ∀ k, k < n → (s.inputAt k).rst = false

/-- `rdy = 1` in the next `n` cycles. -/
abbrev alwaysReady (s : State) (n : Nat) : Prop := ∀ k, k < n → (s.inputAt k).rdy = true

/-- In how many of the next `n` cycles is `rdy = 1`. -/
def readyCount (s : State) (n : Nat) : Nat := (List.range n).countP fun k => (s.inputAt k).rdy

/-! ### Frames -/

/-- The Game Engine's registers are the same (41_game_fsm.md R110). -/
abbrev sameGame (s t : State) : Prop := t.fb = s.fb ∧ t.ar = s.ar ∧ t.gs = s.gs ∧ t.spd = s.spd

/-- The synchronizer and the pending flag are the same (40_debounce.md R90). -/
abbrev sameDebouncer (s t : State) : Prop := t.sy1 = s.sy1 ∧ t.sy2 = s.sy2 ∧ t.prev = s.prev ∧ t.pf = s.pf

/-- The sequencer's registers are the same (R140). -/
abbrev sameSequencer (s t : State) : Prop := t.ph = s.ph ∧ t.cnt = s.cnt ∧ t.ri = s.ri

/-- Every register of the transport reads the same, and the input vectors to come are the same. -/
abbrev sameOutside (s t : State) : Prop :=
  (∀ a, t.tx.read a = s.tx.read a) ∧ t.stim = s.stim ∧ t.cycle = s.cycle

/-- The phase is a render phase (43_renderer.md R162). -/
abbrev renderPhase (s : State) : Prop := s.ph = .renderP ∨ s.ph = .renderT

/-! ### Invariants of the reachable states (10_state.md R36 to R41) -/

/-- One non-empty contiguous run: the lit columns are `lo..hi` (R38, R12). -/
abbrev oneRun (p : Byte) : Prop := ∃ lo hi : Idx, lo ≤ hi ∧ p = colmask lo hi

/-- How many runs a pattern has (R111, R145). -/
def runCount (p : Byte) : Nat :=
  (columns.flatMap fun lo => columns.map fun hi => Run.mk lo hi).countP (isRun p)

/-- Every lit cell of `p` is lit in `q` (R38). -/
abbrev within (p q : Byte) : Prop := p &&& ~~~q = 0x00#8

/-- R36: rows above the active row are clear. -/
abbrev rowsAboveClear (s : State) : Prop := ∀ r : Idx, r < s.ar → s.row r = 0x00#8

/-- R37: in `InGame` the active row is not empty. -/
abbrev activeRowLit (s : State) : Prop := s.gs = .inGame → s.row s.ar ≠ 0x00#8

/-- R38: the rows below the active row are runs, each within the row below it, and so is what a finished game leaves in the
active row, unless that is empty. -/
abbrev towerStands (s : State) : Prop :=
  (∀ r : Idx, s.ar < r → oneRun (s.row r)) ∧
  (∀ r r' : Idx, s.ar < r → r'.val = r.val + 1 → within (s.row r) (s.row r')) ∧
  (s.gs = .ended → s.row s.ar = 0x00#8 ∨ (s.ar = 0 ∧ oneRun (s.row 0) ∧ within (s.row 0) (s.row 1)))

/-- R39: the falling bar is as wide as the row under it, and the first bar has width 6. -/
abbrev barWidth (s : State) : Prop :=
  (s.gs = .inGame → ∀ r : Idx, r.val = s.ar.val + 1 → popcount (s.row s.ar) = popcount (s.row r)) ∧
  (s.ar = 7 → popcount (s.row 7) = 6)

/-- R40: `SPD = SPEED_INC * (7 - AR)`. -/
abbrev speedLaw (s : State) : Prop := s.spd.toNat = Config.values.speedInc * (7 - s.ar.val)

/-- R41: the counters are zero outside their phases and bounded inside them, and `PF = 1` throughout a CONFIRM phase. -/
abbrev countersLaw (s : State) : Prop :=
  (s.ph ≠ .confirm → s.ph ≠ .wait → s.cnt = 0#32) ∧
  (s.ph ≠ .renderP → s.ph ≠ .renderT → s.ri = 0) ∧
  (s.ph = .confirm → s.cnt.toNat ≤ Config.values.settleCount) ∧
  (s.ph = .wait → s.cnt.toNat ≤ intervalCount Config.values s.spd) ∧
  (s.ph = .confirm → s.pf = true)

/-- The transport register space is in canonical form and holds row registers only (20_memory.md R50 b, 43 R167). -/
abbrev transportLaw (s : State) : Prop :=
  s.tx.wf = true ∧ ∀ a, s.tx.read a ≠ none → 1 ≤ a ∧ a ≤ 8

/-- R36 to R41 together, with the transport's form. -/
abbrev reachableLaw (s : State) : Prop :=
  rowsAboveClear s ∧ activeRowLit s ∧ towerStands s ∧ barWidth s ∧ speedLaw s ∧ countersLaw s ∧ transportLaw s

end Sys2Proof.Machine
end

