-- ==== Sys2Proof/Certificates/Slice0/Obligations.lean ====
section
/-! DEFINITION. The statements for the provers. Each docstring names the rules of the spec it formalises. -/

open Sys2Proof Sys2Proof.Machine

/-! ### Selection and encoding -/

/-- R70, R72, R73: the decoder and the opcode table select the same operations. Encoding any operation over any words, the
decoder finds it among the cycle's operations; and where the decoder answers, an operation is among the cycle's operations
exactly when the words are an encoding of it. -/
def Obligations.DecodeAndEncodeAgree : Prop :=
  (∀ (i : Instr) (w : CycleWord), i.wellFormed = true → (encode i w).wellFormed = true →
    ∃ ops, decode (encode i w) = .ok ops ∧ i ∈ ops) ∧
  (∀ (i : Instr) (w : CycleWord) (ops : List Instr), decode w = .ok ops → (i ∈ ops ↔ encode i w = w))

/-- R72: the table of selection words, row by row; every word meets exactly one row. -/
def Obligations.SelectionTable : Prop :=
  (∀ sel : BitVec 4,
    (sel &&& 0xE#4 = 0x0#4 → decodeSel sel = .ok .poll) ∧
    (sel &&& 0xE#4 = 0x2#4 → decodeSel sel = .ok .confirm) ∧
    (sel &&& 0xF#4 = 0x4#4 → decodeSel sel = .ok .pressCut) ∧
    (sel &&& 0xF#4 = 0x5#4 → decodeSel sel = .ok .pressRestart) ∧
    (sel &&& 0xE#4 = 0x6#4 → decodeSel sel = .ok .renderP) ∧
    (sel &&& 0xF#4 = 0x8#4 → decodeSel sel = .ok .shiftRot) ∧
    (sel &&& 0xF#4 = 0x9#4 → decodeSel sel = .ok .shiftHold) ∧
    (sel &&& 0xE#4 = 0xA#4 → decodeSel sel = .ok .renderT) ∧
    (sel &&& 0xE#4 = 0xC#4 → decodeSel sel = .ok .wait) ∧
    (sel &&& 0xE#4 = 0xE#4 → decodeSel sel = .error (.reservedSelection sel))) ∧
  (∀ sel : BitVec 4,
    ([(0x0#4, 0xE#4), (0x2#4, 0xE#4), (0x4#4, 0xF#4), (0x5#4, 0xF#4), (0x6#4, 0xE#4), (0x8#4, 0xF#4), (0x9#4, 0xF#4),
      (0xA#4, 0xE#4), (0xC#4, 0xE#4), (0xE#4, 0xE#4)].countP fun row => sel &&& row.2 == row.1) = 1)

/-- R70, R73: with `rst = 1` a cycle performs RESET alone; with `rst = 0` it performs SYNC, EDGE and one of the nine
sequencer operations, unless the selection is the reserved one. -/
def Obligations.OperationsOfACycle : Prop :=
  ∀ w : CycleWord,
    (w.inp.getLsbD 2 = true → decode w = .ok [.reset]) ∧
    (w.inp.getLsbD 2 = false → selWellFormed w.sel = true →
      ∃ i, decode w = .ok [.sync, .edge, i] ∧ i ≠ .reset ∧ i ≠ .sync ∧ i ≠ .edge) ∧
    (w.inp.getLsbD 2 = false → selWellFormed w.sel = false → decode w = .error (.reservedSelection w.sel))

/-- R72, R73, R76: selection words and input vectors written out bit by bit. -/
def Obligations.WrittenWordsDecode : Prop :=
  decodeSel 0b0000#4 = .ok .poll ∧ decodeSel 0b0011#4 = .ok .confirm ∧ decodeSel 0b0100#4 = .ok .pressCut ∧
  decodeSel 0b0101#4 = .ok .pressRestart ∧ decodeSel 0b0111#4 = .ok .renderP ∧ decodeSel 0b1000#4 = .ok .shiftRot ∧
  decodeSel 0b1001#4 = .ok .shiftHold ∧ decodeSel 0b1010#4 = .ok .renderT ∧ decodeSel 0b1101#4 = .ok .wait ∧
  decodePin 0b110#3 = some .reset ∧ decodePin 0b011#3 = none

/-! ### The step -/

/-- R13, R70, R98, R152: the step runs the selected operation. RESET runs alone. With a sequencer operation run SYNC and
EDGE: the synchronizer shifts and `PF` is as R98 says, whatever the operation. The model's choice, no rule's: the trace
`stim` and the count `cycle`, of which each step uses up one vector and adds one (log entries 1 and 3), and the form in
which `exec` of one operation is joined with SYNC and EDGE (log entry 6). -/
def Obligations.StepRunsSelectedOperation : Prop :=
  ∀ (s m : State) (i : Instr), decodeMain s.fetch = .ok i → exec i s = .next m →
    (i = .reset → step s = .next { m with stim := s.stim.tail, cycle := s.cycle + 1 }) ∧
    (i ≠ .reset → step s = .next
      { m with
        sy1 := s.input.btn, sy2 := s.sy1, prev := s.sy2
        pf := if s.clearNow then false else if s.fall then true else s.pf
        stim := s.stim.tail, cycle := s.cycle + 1 })

/-- R14, R180, R181: no state stops, in one cycle or in any number of them. -/
def Obligations.EveryRunGoesOn : Prop := ∀ (s : State) (n : Nat), ∃ t, runsTo s n t

/-- R152 (the spec's own assembly of its rules): the step, put together from the operations' own rules, is the listing of
R152, and so are the outputs. -/
def Obligations.StepEqualsListing : Prop :=
  ∀ s : State,
    (∃ t, step s = .next t ∧
      sameGame (listingStep Config.values s s.input) t ∧ sameDebouncer (listingStep Config.values s s.input) t ∧
      sameSequencer (listingStep Config.values s s.input) t) ∧
    (s.outputs =
      let rendering := !s.input.rst && (decide (s.ph = .renderP) || decide (s.ph = .renderT))
      { pressEv := !s.input.rst && decide (s.ph = .confirm) && decide (s.cnt = 0#32) && !s.sy2
        wrValid := rendering
        wrReg := if rendering then BitVec.ofNat 8 (s.ri.val + 1) else 0x00#8
        wrData := if rendering then s.row s.ri else 0x00#8 })

/-- R140: the complete table of transitions of the main loop. -/
def Obligations.PhaseGraph : Prop :=
  ∀ s : State, s.input.rst = false → ∃ t, step s = .next t ∧
    (s.ph = .poll → s.pf = true → t.ph = .confirm ∧ t.cnt.toNat = Config.values.settleCount) ∧
    (s.ph = .poll → s.pf = false → t.ph = .shift ∧ t.cnt = s.cnt) ∧
    (s.ph = .confirm → s.cnt ≠ 0#32 → t.ph = .confirm ∧ t.cnt = s.cnt - 1#32) ∧
    (s.ph = .confirm → s.cnt = 0#32 → s.sy2 = false → t.ph = .press ∧ t.pf = false ∧ s.pressEv = true) ∧
    (s.ph = .confirm → s.cnt = 0#32 → s.sy2 = true → t.ph = .shift ∧ t.pf = false) ∧
    (s.ph = .press → t.ph = .renderP ∧ t.ri = 0) ∧
    (renderPhase s → s.input.rdy = false → t.ph = s.ph ∧ t.ri = s.ri) ∧
    (renderPhase s → s.input.rdy = true → s.ri ≠ 7 → t.ph = s.ph ∧ t.ri.val = s.ri.val + 1) ∧
    (s.ph = .renderP → s.input.rdy = true → s.ri = 7 → t.ph = .shift ∧ t.ri = 0) ∧
    (s.ph = .renderT → s.input.rdy = true → s.ri = 7 →
      t.ph = .wait ∧ t.ri = 0 ∧ t.cnt.toNat = intervalCount Config.values s.spd) ∧
    (s.ph = .shift → t.ph = .renderT ∧ t.ri = 0) ∧
    (s.ph = .wait → s.cnt ≠ 0#32 → t.ph = .wait ∧ t.cnt = s.cnt - 1#32) ∧
    (s.ph = .wait → s.cnt = 0#32 → t.ph = .poll)

/-! ### RESET -/

/-- R200: RESET puts every register at its reset value, whatever the state and the other inputs; no other operation runs
in its cycle; the outputs are gated. The model's choice, no rule's: RESET leaves `tx`, `stim` and `cycle`, and the step
uses up one vector in a reset cycle too (log entry 3; for `tx` also the spec's own inference in R204). -/
def Obligations.ResetTakesEveryRegister : Prop :=
  ∀ s : State,
    exec .reset s = .next
      { fb := #v[0x00#8, 0x00#8, 0x00#8, 0x00#8, 0x00#8, 0x00#8, 0x00#8, 0x7E#8], ar := 7, gs := .inGame, spd := 0#16,
        pf := false, sy1 := true, sy2 := true, prev := true, ph := .renderP, cnt := 0#32, ri := 0,
        tx := s.tx, stim := s.stim, cycle := s.cycle } ∧
    (s.input.rst = true →
      (∃ t, exec .reset s = .next t ∧ step s = .next { t with stim := s.stim.tail, cycle := s.cycle + 1 }) ∧
      s.outputs = { pressEv := false, wrValid := false, wrReg := 0x00#8, wrData := 0x00#8 })

/-- R20: the reset value of every register. -/
def Obligations.ResetStateValues : Prop :=
  (∀ r : Idx, State.reset.row r = if r = 7 then 0x7E#8 else 0x00#8) ∧
  State.reset.ar = 7 ∧ State.reset.gs = .inGame ∧ State.reset.spd = 0#16 ∧ State.reset.pf = false ∧
  State.reset.sy1 = true ∧ State.reset.sy2 = true ∧ State.reset.prev = true ∧ State.reset.ph = .renderP ∧
  State.reset.cnt = 0#32 ∧ State.reset.ri = 0

/-- R202 (an inference of the spec's from R200 and R123): `init_game` writes the game's registers only, to the values
RESET gives them; RESET writes the others as well. -/
def Obligations.RestartIsNotAReset : Prop :=
  ∀ s : State,
    (sameGame State.reset s.initGame ∧ sameDebouncer s s.initGame ∧ sameSequencer s s.initGame ∧
      sameOutside s s.initGame) ∧
    (∃ t, exec .reset s = .next t ∧ sameGame s.initGame t ∧ t.pf = false ∧ t.sy1 = true ∧ t.sy2 = true ∧
      t.prev = true ∧ t.ph = .renderP ∧ t.cnt = 0#32 ∧ t.ri = 0)

/-! ### The debounce synchronizer -/

/-- R91: SYNC is performed in every cycle with `rst = 0`; it shifts the line through the three flip-flops and changes
nothing else; the synchronized level lags the pin by two edges. -/
def Obligations.SyncShiftsTheLine : Prop :=
  (∀ s : State, s.input.rst = false → ∃ i, decode s.fetch = .ok [.sync, .edge, i]) ∧
  (∀ s : State, exec .sync s = .next { s with sy1 := s.input.btn, sy2 := s.sy1, prev := s.sy2 }) ∧
  (∀ s : State, s.input.rst = false →
    ∃ t, step s = .next t ∧ t.sy1 = s.input.btn ∧ t.sy2 = s.sy1 ∧ t.prev = s.sy2) ∧
  (∀ s : State, noReset s 2 → ∃ t, runsTo s 2 t ∧ t.sy2 = (s.inputAt 0).btn)

/-- R93, R183: EDGE is performed in every cycle with `rst = 0`; it sets the pending flag on a falling transition outside
the clearing cycle, and changes nothing else. -/
def Obligations.EdgeSetsThePendingFlag : Prop :=
  ∀ s : State,
    (s.input.rst = false → ∃ i, decode s.fetch = .ok [.sync, .edge, i]) ∧
    (s.prev = true → s.sy2 = false → ¬ (s.ph = .confirm ∧ s.cnt = 0#32) → exec .edge s = .next { s with pf := true }) ∧
    (¬ (s.prev = true ∧ s.sy2 = false) → exec .edge s = .next s) ∧
    (s.ph = .confirm → s.cnt = 0#32 → exec .edge s = .next s)

/-- R98: the clear wins over a set in the same cycle; else a falling edge sets; else the flag stays. -/
def Obligations.PendingFlagAfterACycle : Prop :=
  ∀ s : State, s.input.rst = false → ∃ t, step s = .next t ∧
    t.pf = (if s.ph = .confirm ∧ s.cnt = 0#32 then false else if s.prev = true ∧ s.sy2 = false then true else s.pf)

/-- R94 (an inference of the spec's from R91 and R93): a captured fall of the pin at edge 0 gives `fall` in cycle 2 and
the pending flag from cycle 3 on, unless cycle 2 is a clearing one. -/
def Obligations.PinFallReachesTheFlag : Prop :=
  ∀ s : State, s.sy1 = true → (s.inputAt 0).btn = false → noReset s 3 →
    ∃ u t, runsTo s 2 u ∧ runsTo s 3 t ∧ u.fall = true ∧ (u.clearNow = false → t.pf = true)

/-- R92 (an inference of the spec's from R91 and R93): after reset the synchronizer holds ones, and a button held low from
the first cycle counts as one edge, seen at the third edge and never again while it is held; a button not held gives none.
-/
def Obligations.HeldThroughResetIsOneEdge : Prop :=
  (State.reset.sy1 = true ∧ State.reset.sy2 = true ∧ State.reset.prev = true) ∧
  ∀ (stim : List Input) (cycle n : Nat), noReset { State.reset with stim := stim, cycle := cycle } n →
    ((∀ k, k < n → (State.inputAt { State.reset with stim := stim, cycle := cycle } k).btn = false) →
      ∃ t, runsTo { State.reset with stim := stim, cycle := cycle } n t ∧ (t.fall = true ↔ n = 2) ∧
        (n = 2 → t.sy2 = false ∧ t.prev = true) ∧ (n < 3 → t.pf = false) ∧ (n = 3 → t.pf = true)) ∧
    ((∀ k, k < n → (State.inputAt { State.reset with stim := stim, cycle := cycle } k).btn = true) →
      ∃ t, runsTo { State.reset with stim := stim, cycle := cycle } n t ∧ t.fall = false ∧ t.pf = false)

/-- R95: POLL, the operation of its phase, starts a confirmation or goes on to the tick; it does not change the flag it
reads, and an edge in the same cycle is left for the next POLL; the only way to POLL is from WAIT. -/
def Obligations.PollStartsOrGoesOn : Prop :=
  (∀ s : State, s.ph = .poll → decodeSel s.sel = .ok .poll) ∧
  (∀ s : State, s.pf = true → ∃ c : Count, c.toNat = 30 * Config.values.fMs ∧
    exec .poll s = .next { s with ph := .confirm, cnt := c }) ∧
  (∀ s : State, s.pf = false → exec .poll s = .next { s with ph := .shift }) ∧
  (∀ s : State, s.input.rst = false → s.ph = .poll → s.pf = false → s.fall = true →
    ∃ t, step s = .next t ∧ t.ph = .shift ∧ t.pf = true) ∧
  (∀ s t : State, step s = .next t → s.input.rst = false → t.ph = .poll → s.ph = .wait)

/-- R96, R97: CONFIRM counts down; in its last cycle it clears the flag and decides by the one sample of `SY2`. -/
def Obligations.ConfirmCountsThenDecides : Prop :=
  ∀ s : State,
    (s.ph = .confirm → decodeSel s.sel = .ok .confirm) ∧
    (s.cnt ≠ 0#32 → exec .confirm s = .next { s with cnt := s.cnt - 1#32 }) ∧
    (s.cnt = 0#32 → s.sy2 = false → exec .confirm s = .next { s with pf := false, ph := .press }) ∧
    (s.cnt = 0#32 → s.sy2 = true → exec .confirm s = .next { s with pf := false, ph := .shift })

/-- R96, R97, R141: a CONFIRM phase with `CNT = n` lasts `n + 1` cycles whatever the button does; the game stands still in
it; it ends with the flag clear, in PRESS for a line low at the end and in SHIFT otherwise. -/
def Obligations.ConfirmPhaseLength : Prop :=
  ∀ s : State, s.ph = .confirm → noReset s (s.cnt.toNat + 1) →
    (∀ k, k ≤ s.cnt.toNat →
      ∃ u, runsTo s k u ∧ u.ph = .confirm ∧ u.cnt.toNat = s.cnt.toNat - k ∧ sameGame s u ∧ u.tx = s.tx) ∧
    (∃ u t, runsTo s s.cnt.toNat u ∧ runsTo s (s.cnt.toNat + 1) t ∧ t.pf = false ∧ sameGame s t ∧
      t.ph = if u.sy2 then .shift else .press)

/-- R100: the cycle after a Press Event is a PRESS cycle without an event of its own, and PRESS cycles come about in no
other way. -/
def Obligations.PressEventsArePressCycles : Prop :=
  (∀ s : State, s.outputs.pressEv =
    (!s.input.rst && decide (s.ph = .confirm) && decide (s.cnt = 0#32) && !s.sy2)) ∧
  (∀ s : State, s.outputs.pressEv = true →
    ∃ t, step s = .next t ∧ t.ph = .press ∧ t.outputs.pressEv = false) ∧
  (∀ s t : State, step s = .next t → t.ph = .press → s.outputs.pressEv = true)

/-- R99 (an inference of the spec's): between two Press Events there is a falling edge of the line after the first one:
edges inside one window give at most one event. -/
def Obligations.PressEventsNeedANewFall : Prop :=
  ∀ (s t : State) (n : Nat), s.pressEv = true → noReset s n → 0 < n → runsTo s n t → t.pressEv = true →
    ∃ k u, 0 < k ∧ k < n ∧ runsTo s k u ∧ u.fall = true

/-- R101 (an inference of the spec's): two Press Events are never closer than `SETTLE_CYCLES + interval_cycles(SPD) + 21`
cycles, with `SPD` the value after the first event's PRESS cycle. -/
def Obligations.PressEventsAreFarApart : Prop :=
  ∀ (s p t : State) (n : Nat), s.pressEv = true → noReset s n → runsTo s 2 p → 0 < n → runsTo s n t →
    t.pressEv = true → Config.values.settleCount + intervalCount Config.values p.spd + 21 ≤ n

/-! ### The game -/

/-- R111, R112: a run is a maximal stretch of lit columns; the longest run is one, no run is longer, and of those as long
it is the one that ends at the highest column; the empty row has none. -/
def Obligations.LongestRunIsLongestThenRightmost : Prop :=
  (∀ (p : Byte) (r : Run), isRun p r = true ↔
    r.lo ≤ r.hi ∧ (∀ c : Idx, r.lo ≤ c → c ≤ r.hi → cell p c = true) ∧
    (∀ c : Idx, c.val + 1 = r.lo.val → cell p c = false) ∧ (∀ c : Idx, c.val = r.hi.val + 1 → cell p c = false)) ∧
  longestRun 0x00#8 = none ∧
  (∀ p : Byte, p ≠ 0x00#8 → ∃ r, longestRun p = some r ∧ isRun p r = true ∧
    ∀ q : Run, isRun p q = true → q.length < r.length ∨ (q.length = r.length ∧ q.hi ≤ r.hi))

/-- R113: `narrow` keeps exactly the cells of the longest run, and leaves the empty row empty; what it keeps was lit, and
is one run of the longest run's length. With the rule's examples. -/
def Obligations.NarrowKeepsTheLongestRun : Prop :=
  narrow 0x00#8 = 0x00#8 ∧
  [0x7E#8, 0x38#8, 0xC3#8, 0x66#8, 0xEE#8, 0x81#8, 0xE7#8, 0xFF#8].map narrow =
    [0x7E#8, 0x38#8, 0x03#8, 0x06#8, 0x0E#8, 0x01#8, 0x07#8, 0xFF#8] ∧
  ∀ p : Byte, within (narrow p) p ∧
    ∀ r, longestRun p = some r → narrow p = colmask r.lo r.hi ∧ oneRun (narrow p) ∧ popcount (narrow p) = r.length ∧
      ∀ c : Idx, cell (narrow p) c = true ↔ r.lo ≤ c ∧ c ≤ r.hi

/-- R114, R115: the Support Row is the row with the next index, all lit under row 7; a cell survives when the cut keeps it
and the Support Row has it. -/
def Obligations.SurvivorsAreSupported : Prop :=
  ∀ s : State,
    (∀ a r : Idx, r.val = a.val + 1 → s.support a = s.row r) ∧ s.support 7 = 0xFF#8 ∧
    s.survivors = narrow (s.row s.ar) &&& s.support s.ar ∧ within s.survivors (s.support s.ar) ∧
    ∀ c : Idx, cell s.survivors c = (cell (narrow (s.row s.ar)) c && cell (s.support s.ar) c)

/-- R117: a spawned bar of width `w` is the `w` highest columns, the number `2^w - 1`. With the rule's examples. -/
def Obligations.SpawnIsRightAligned : Prop :=
  [1, 2, 3, 6, 8].map spawn = [0x01#8, 0x03#8, 0x07#8, 0x3F#8, 0xFF#8] ∧
  ∀ w : Nat, 1 ≤ w → w ≤ 8 →
    (spawn w).toNat = 2 ^ w - 1 ∧ (∀ lo : Idx, lo.val = 8 - w → spawn w = colmask lo 7) ∧ popcount (spawn w) = w ∧
    ∀ c : Idx, cell (spawn w) c = true ↔ 8 - w ≤ c.val

/-- R118, R119, R120, R121: PRESS_CUT in full: the surviving row is written in every outcome; the game ends at once when
nothing survives or row 0 is reached; otherwise Speed steps up, the Active Row moves one index down and a bar of the
surviving width replaces its row; every other register stays. -/
def Obligations.PressCutOutcomes : Prop :=
  (∀ s : State, s.ph = .press → s.gs = .inGame → decodeSel s.sel = .ok .pressCut) ∧
  ∀ s : State, ∃ t, exec .pressCut s = .next t ∧
    t.row s.ar = narrow (s.row s.ar) &&& s.support s.ar ∧ t.ph = .renderP ∧ t.ri = 0 ∧ t.cnt = s.cnt ∧
    sameDebouncer s t ∧ sameOutside s t ∧
    ((s.survivors = 0x00#8 ∨ s.ar = 0) →
      t.gs = .ended ∧ t.ar = s.ar ∧ t.spd = s.spd ∧ ∀ r : Idx, r ≠ s.ar → t.row r = s.row r) ∧
    (s.survivors ≠ 0x00#8 → s.ar ≠ 0 →
      t.gs = s.gs ∧ t.ar.val + 1 = s.ar.val ∧ t.spd = s.spd + BitVec.ofNat 16 Config.values.speedInc ∧
      t.row t.ar = spawn (popcount s.survivors) ∧ ∀ r : Idx, r ≠ s.ar → r ≠ t.ar → t.row r = s.row r)

/-- R128: what a cut makes of the active row, the row above, `AR`, `GS` and `SPD` depends on `FB[AR]`, the Support Row,
`AR` and `SPD` alone. -/
def Obligations.CutDependsOnFourThings : Prop :=
  ∀ s s' t t' : State, s.row s.ar = s'.row s.ar → s.support s.ar = s'.support s.ar → s.ar = s'.ar → s.spd = s'.spd →
    s.gs = .inGame → s'.gs = .inGame → exec .pressCut s = .next t → exec .pressCut s' = .next t' →
    t.ar = t'.ar ∧ t.gs = t'.gs ∧ t.spd = t'.spd ∧ t.row s.ar = t'.row s.ar ∧
      (t.gs = .inGame → t.row t.ar = t'.row t.ar)

/-- R123, R124: PRESS_RESTART gives the exact initial frame, Speed 0, Active Row 7 and `InGame`, starts the re-render, and
touches nothing else. -/
def Obligations.RestartGivesTheInitialFrame : Prop :=
  (∀ s : State, s.ph = .press → s.gs = .ended → decodeSel s.sel = .ok .pressRestart) ∧
  ∀ s : State, ∃ t, exec .pressRestart s = .next t ∧
    (∀ r : Idx, t.row r = if r = 7 then 0x7E#8 else 0x00#8) ∧ t.spd = 0#16 ∧ t.ar = 7 ∧ t.gs = .inGame ∧
    t.ph = .renderP ∧ t.ri = 0 ∧ t.cnt = s.cnt ∧ sameDebouncer s t ∧ sameOutside s t

/-- R126: the tick delay is the base interval less the Speed, clamped from below; it never wraps, never grows with the
Speed and is never zero. The last clause is the rule's table for the reference configuration. -/
def Obligations.IntervalIsClamped : Prop :=
  (∀ s : Speed,
    intervalMs Config.values s = max Config.values.minInterval (Config.values.baseInterval - s.toNat) ∧
    Config.values.minInterval ≤ intervalMs Config.values s ∧ intervalMs Config.values s ≤ Config.values.baseInterval ∧
    intervalMs Config.values s ≠ 0) ∧
  (∀ s s' : Speed, s.toNat ≤ s'.toNat → intervalMs Config.values s' ≤ intervalMs Config.values s) ∧
  [0#16, 10#16, 20#16, 30#16, 40#16, 50#16, 60#16, 70#16].map (intervalMs Config.Values.ref) =
    [100, 90, 80, 70, 60, 50, 40, 40]

/-! ### The tick -/

/-- R143: SHIFT_ROT moves every cell of the active row one column towards column 0, column 0 to column 7; no other row and
no other register but `PH` and `RI` changes. With the rule's corner cases. -/
def Obligations.ShiftRotMovesTheActiveRow : Prop :=
  (∀ s : State, s.ph = .shift → s.gs = .inGame → decodeSel s.sel = .ok .shiftRot) ∧
  (rol8 0x00#8 = 0x00#8 ∧ rol8 0xFF#8 = 0xFF#8 ∧ rol8 0xE0#8 = 0xC1#8 ∧ runCount 0xC1#8 = 2) ∧
  ∀ s : State, ∃ t, exec .shiftRot s = .next t ∧ t.row s.ar = rol8 (s.row s.ar) ∧
    (∀ c : Idx, t.cellAt s.ar c = s.cellAt s.ar ⟨(c.val + 1) % 8, by omega⟩) ∧
    (∀ r : Idx, r ≠ s.ar → t.row r = s.row r) ∧ t.ar = s.ar ∧ t.gs = s.gs ∧ t.spd = s.spd ∧
    t.ph = .renderT ∧ t.ri = 0 ∧ t.cnt = s.cnt ∧ sameDebouncer s t ∧ sameOutside s t

/-- R144: SHIFT_HOLD goes on to the render and touches nothing else. -/
def Obligations.ShiftHoldOnlyMovesOn : Prop :=
  (∀ s : State, s.ph = .shift → s.gs = .ended → decodeSel s.sel = .ok .shiftHold) ∧
  ∀ s : State, exec .shiftHold s = .next { s with ph := .renderT, ri := 0 }

/-- R145 (an inference of the spec's from R143): the rotation is a bijection, eight of them are the identity, the number
of lit cells stays; a bar of width `w <= 7` shows as one run in `9 - w` of the eight positions and as two in the other `w
- 1`, and a bar of width 8 is `0xFF` in all. -/
def Obligations.RotationProperties : Prop :=
  (∀ p q : Byte, rol8 p = rol8 q → p = q) ∧ (∀ q : Byte, ∃ p, rol8 p = q) ∧
  (∀ p : Byte, rol8 (rol8 (rol8 (rol8 (rol8 (rol8 (rol8 (rol8 p))))))) = p) ∧
  (∀ p : Byte, popcount (rol8 p) = popcount p) ∧ rol8 0xFF#8 = 0xFF#8 ∧ spawn 8 = 0xFF#8 ∧
  (∀ w : Nat, 1 ≤ w → w ≤ 7 →
    ((List.range 8).countP fun k => runCount (rol8^[k] (spawn w)) == 1) = 9 - w ∧
    ((List.range 8).countP fun k => runCount (rol8^[k] (spawn w)) == 2) = w - 1)

/-- R148: WAIT counts down and then goes to POLL; it does nothing else. -/
def Obligations.WaitCountsThenPolls : Prop :=
  ∀ s : State,
    (s.ph = .wait → decodeSel s.sel = .ok .wait) ∧
    (s.cnt ≠ 0#32 → exec .wait s = .next { s with cnt := s.cnt - 1#32 }) ∧
    (s.cnt = 0#32 → exec .wait s = .next { s with ph := .poll })

/-- R148, R141: a WAIT phase with `CNT = n` lasts `n + 1` cycles, whatever the button and the transport do, and the game
and the transport's registers stand still in it. -/
def Obligations.WaitPhaseLength : Prop :=
  ∀ s : State, s.ph = .wait → noReset s (s.cnt.toNat + 1) →
    (∀ k, k ≤ s.cnt.toNat →
      ∃ u, runsTo s k u ∧ u.ph = .wait ∧ u.cnt.toNat = s.cnt.toNat - k ∧ sameGame s u ∧ u.tx = s.tx) ∧
    (∃ t, runsTo s (s.cnt.toNat + 1) t ∧ t.ph = .poll ∧ t.cnt = 0#32 ∧ sameGame s t ∧ t.tx = s.tx)

/-- R149 (an inference of the spec's): with no flag pending at POLL and the transport always ready, the next POLL comes
after exactly `interval_cycles(SPD) + 11` cycles and none comes before; the trip rotates the active row once in `InGame`
and changes nothing else of the game. R149's trips with a pending flag or with a transport that stalls are not stated
here. -/
def Obligations.IdleTripIsOneTick : Prop :=
  ∀ s : State, s.ph = .poll → s.pf = false →
    noReset s (intervalCount Config.values s.spd + 11) → alwaysReady s (intervalCount Config.values s.spd + 11) →
    (∀ k u, 0 < k → k < intervalCount Config.values s.spd + 11 → runsTo s k u → u.ph ≠ .poll) ∧
    ∃ t, runsTo s (intervalCount Config.values s.spd + 11) t ∧ t.ph = .poll ∧ t.ar = s.ar ∧ t.gs = s.gs ∧ t.spd = s.spd ∧
      (∀ r : Idx, r ≠ s.ar → t.row r = s.row r) ∧
      t.row s.ar = if s.gs = .inGame then rol8 (s.row s.ar) else s.row s.ar

/-! ### The renderer -/

/-- R51, R52: `set` makes one cell the given value and leaves the other 63; `clear` makes every cell 0; neither touches
another register. -/
def Obligations.FrameBufferPrimitives : Prop :=
  (∀ (s : State) (r c : Idx) (b : Bool), (s.setCell r c b).cellAt r c = b ∧
    (∀ r' c' : Idx, r' ≠ r ∨ c' ≠ c → (s.setCell r c b).cellAt r' c' = s.cellAt r' c') ∧
    sameDebouncer s (s.setCell r c b) ∧ sameSequencer s (s.setCell r c b) ∧ sameOutside s (s.setCell r c b) ∧
    (s.setCell r c b).ar = s.ar ∧ (s.setCell r c b).gs = s.gs ∧ (s.setCell r c b).spd = s.spd) ∧
  (∀ (s : State) (r c : Idx), s.clearFb.cellAt r c = false) ∧
  (∀ s : State, sameDebouncer s s.clearFb ∧ sameSequencer s s.clearFb ∧ sameOutside s s.clearFb ∧
    s.clearFb.ar = s.ar ∧ s.clearFb.gs = s.gs ∧ s.clearFb.spd = s.spd)

/-- R160: `row_bits(row)` is the byte whose bit `7 - c` is the cell of column `c`, and with the packed storage it is the
row. -/
def Obligations.RowBitsAreTheRow : Prop :=
  ∀ (s : State) (r c : Idx), (s.rowBits r).getLsbD (7 - c.val) = s.cellAt r c ∧ s.rowBits r = s.row r

/-- R162, R163: RENDER_P waits for the transport; an accepted write stores row `RI` in register `RI + 1` and nothing
elsewhere; after row 7 it goes to SHIFT; no game register and no flag changes. -/
def Obligations.RenderPStep : Prop :=
  ∀ s : State,
    (s.ph = .renderP → decodeSel s.sel = .ok .renderP) ∧
    (s.input.rdy = false → exec .renderP s = .next s) ∧
    (s.input.rdy = true → ∃ t, exec .renderP s = .next t ∧
      t.tx.read (regNumber s.ri).toNat = some (s.row s.ri) ∧ (regNumber s.ri).toNat = s.ri.val + 1 ∧
      (∀ a, a ≠ (regNumber s.ri).toNat → t.tx.read a = s.tx.read a) ∧ sameGame s t ∧ sameDebouncer s t ∧
      t.cnt = s.cnt ∧ t.stim = s.stim ∧ t.cycle = s.cycle ∧
      (s.ri ≠ 7 → t.ph = s.ph ∧ t.ri.val = s.ri.val + 1) ∧ (s.ri = 7 → t.ph = .shift ∧ t.ri = 0))

/-- R162, R164, R147: RENDER_T renders as RENDER_P does; after row 7 it goes to WAIT with the tick delay of the Speed
loaded. -/
def Obligations.RenderTStep : Prop :=
  ∀ s : State,
    (s.ph = .renderT → decodeSel s.sel = .ok .renderT) ∧
    (s.input.rdy = false → exec .renderT s = .next s) ∧
    (s.input.rdy = true → ∃ t, exec .renderT s = .next t ∧
      t.tx.read (regNumber s.ri).toNat = some (s.row s.ri) ∧ (regNumber s.ri).toNat = s.ri.val + 1 ∧
      (∀ a, a ≠ (regNumber s.ri).toNat → t.tx.read a = s.tx.read a) ∧ sameGame s t ∧ sameDebouncer s t ∧
      t.stim = s.stim ∧ t.cycle = s.cycle ∧
      (s.ri ≠ 7 → t.ph = s.ph ∧ t.cnt = s.cnt ∧ t.ri.val = s.ri.val + 1) ∧
      (s.ri = 7 → t.ph = .wait ∧ t.ri = 0 ∧
        t.cnt.toNat = intervalMs Config.values s.spd * Config.values.fMs))

/-- R165 (an inference of the spec's): in the two render phases the same frame gives the same offer on the port and the
same accepted write. -/
def Obligations.RenderPhasesLookAlike : Prop :=
  ∀ s t t' : State, exec .renderP s = .next t → exec .renderT s = .next t' →
    (∀ a, t.tx.read a = t'.tx.read a) ∧ sameGame t t' ∧ t.ri = t'.ri ∧
    (State.outputs { s with ph := .renderP } = State.outputs { s with ph := .renderT }) ∧
    (State.events { s with ph := .renderP } = State.events { s with ph := .renderT })

/-- R166: the transport outputs in a render phase, and their gating to zero everywhere else and in reset. -/
def Obligations.OutputsAreGated : Prop :=
  ∀ s : State,
    (s.input.rst = false → renderPhase s → s.outputs.wrValid = true ∧ s.outputs.wrReg.toNat = s.ri.val + 1 ∧
      s.outputs.wrData = s.row s.ri) ∧
    (s.input.rst = true ∨ ¬ renderPhase s → s.outputs.wrValid = false ∧ s.outputs.wrReg = 0x00#8 ∧
      s.outputs.wrData = 0x00#8 ∧ s.accepts = false) ∧
    (s.outputs.wrValid = true → s.outputs.wrReg ≠ 0x00#8)

/-- R62, R57, R161, R162: in a render pass entered at row 0, whatever pauses the transport makes, as long as fewer than
eight writes were accepted the pass is still at the row after the last one, the log is the first rows in order to
registers 1, 2, ... with none skipped and none repeated, and the frame and the game stand still. -/
def Obligations.RenderPassWritesInOrder : Prop :=
  ∀ (s : State) (n : Nat), renderPhase s → s.ri = 0 → noReset s n → readyCount s n < 8 →
    ∃ t, runsTo s n t ∧ t.ph = s.ph ∧ t.ri.val = readyCount s n ∧ sameGame s t ∧ t.cnt = s.cnt ∧
      eventLog n s =
        (columns.take (readyCount s n)).map fun r => .write (BitVec.ofNat 8 (r.val + 1)) (s.row r)

/-- R62, R162, R163, R164: a whole pass with the transport ready: eight writes, to registers 1 to 8 in order; afterwards
the transport holds the frame, its other registers are as before, and the main loop goes on to the tick or to the wait. -/
def Obligations.RenderPassShowsTheFrame : Prop :=
  ∀ s : State, renderPhase s → s.ri = 0 → noReset s 8 → alwaysReady s 8 →
    eventLog 8 s = columns.map (fun r => .write (BitVec.ofNat 8 (r.val + 1)) (s.row r)) ∧
    ∃ t, runsTo s 8 t ∧ sameGame s t ∧ t.ri = 0 ∧
      (∀ r : Idx, t.tx.read (r.val + 1) = some (s.row r)) ∧
      (∀ a, a = 0 ∨ 8 < a → t.tx.read a = s.tx.read a) ∧
      (s.ph = .renderP → t.ph = .shift) ∧
      (s.ph = .renderT → t.ph = .wait ∧ t.cnt.toNat = intervalCount Config.values s.spd)

/-- R60, R211, R216: as long as the transport is not ready the block waits in its render phase with the same write on
offer; nothing of the game and of the sequencer changes, however long it lasts. -/
def Obligations.StalledRenderWaits : Prop :=
  ∀ (s : State) (n : Nat), renderPhase s → noReset s (n + 1) → (∀ k, k < n → (s.inputAt k).rdy = false) →
    ∃ t, runsTo s n t ∧ sameGame s t ∧ sameSequencer s t ∧ t.tx = s.tx ∧ t.outputs = s.outputs ∧ eventLog n s = []

/-! ### Contexts and ownership -/

/-- R104, R186: the main loop cannot see `btn`, `SY1` or `PREV`: two states that differ in nothing else go to states that
agree on the game and on the sequencer, and give the same events. -/
def Obligations.MainLoopIgnoresTheRawLine : Prop :=
  ∀ s s' t t' : State, sameGame s s' → sameSequencer s s' → s.pf = s'.pf → s.sy2 = s'.sy2 →
    s.input.rst = s'.input.rst → s.input.rdy = s'.input.rdy → step s = .next t → step s' = .next t' →
    sameGame t t' ∧ sameSequencer t t' ∧ s.events = s'.events

/-- R22, R25, R26, R27, R104: only PRESS cycles write `AR`, `GS` and `SPD`, only PRESS cycles and SHIFT cycles in `InGame`
write the frame buffer, and RESET; a SHIFT cycle writes the active row only. -/
def Obligations.OnlyPressAndShiftWriteTheGame : Prop :=
  ∀ s t : State, step s = .next t → s.input.rst = false →
    (s.ph ≠ .press → t.ar = s.ar ∧ t.gs = s.gs ∧ t.spd = s.spd) ∧
    (s.ph ≠ .press → ¬ (s.ph = .shift ∧ s.gs = .inGame) → t.fb = s.fb) ∧
    (s.ph = .shift → ∀ r : Idx, r ≠ s.ar → t.row r = s.row r)

/-- R110: the three transitions of the game: a press in `InGame` keeps it or ends it, a press in `End` restarts it, and
nothing but a press or a reset changes it. -/
def Obligations.GameTransitions : Prop :=
  ∀ s : State, s.input.rst = false → ∃ t, step s = .next t ∧
    (s.ph = .press → s.gs = .inGame →
      (t.gs = .ended ∧ t.ar = s.ar) ∨ (t.gs = .inGame ∧ t.ar.val + 1 = s.ar.val)) ∧
    (s.ph = .press → s.gs = .ended → t.gs = .inGame ∧ t.ar = 7) ∧
    (s.ph ≠ .press → t.gs = s.gs)

/-- R50, R60, R167: a register of the transport changes only by an accepted write, and then it is one of the eight row
registers, the one on offer. -/
def Obligations.OnlyAcceptedWritesReachTheTransport : Prop :=
  ∀ (s t : State) (a : Nat), step s = .next t → t.tx.read a ≠ s.tx.read a →
    s.outputs.wrValid = true ∧ s.input.rdy = true ∧ s.input.rst = false ∧ a = s.outputs.wrReg.toNat ∧
    1 ≤ a ∧ a ≤ 8 ∧ t.tx.read a = some s.outputs.wrData

/-! ### Invariants

10_state.md section 7: inferences the spec itself draws from its operation rules, "a model should prove them". -/

/-- R36, an inference of the spec's, from every state that has it. -/
def Obligations.RowsAboveStayClear : Prop :=
  rowsAboveClear State.reset ∧ ∀ s t : State, rowsAboveClear s → step s = .next t → rowsAboveClear t

/-- R37, an inference of the spec's, from every state that has it. -/
def Obligations.ActiveRowStaysLit : Prop :=
  activeRowLit State.reset ∧ ∀ s t : State, activeRowLit s → step s = .next t → activeRowLit t

/-- R38, an inference of the spec's, from every state that has it. -/
def Obligations.TowerKeepsStanding : Prop :=
  towerStands State.reset ∧ ∀ s t : State, towerStands s → step s = .next t → towerStands t

/-- R39, an inference of the spec's, from every state that has it. -/
def Obligations.BarKeepsItsWidth : Prop :=
  barWidth State.reset ∧ ∀ s t : State, barWidth s → step s = .next t → barWidth t

/-- R40, an inference of the spec's, from every state that has it. -/
def Obligations.SpeedFollowsTheRow : Prop :=
  speedLaw State.reset ∧ ∀ s t : State, speedLaw s → step s = .next t → speedLaw t

/-- R41, an inference of the spec's, from every state that has it, and with `PH != 7`. -/
def Obligations.CountersStayInTheirPhases : Prop :=
  (∀ s : State, s.ph.code ≠ 7#3) ∧ countersLaw State.reset ∧ ∀ s t : State, countersLaw s → step s = .next t → countersLaw t

/-- R50, R167: the transport register space keeps its canonical form and holds row registers only. -/
def Obligations.TransportKeepsItsForm : Prop :=
  ∀ s t : State, transportLaw s → step s = .next t → transportLaw t

/-- R36 to R41 and the transport's form together are kept by every run, whatever the inputs, and hold after a cycle with
`rst = 1` from any state whose transport registers have their form. -/
def Obligations.ReachableLawIsKept : Prop :=
  (∀ (s t : State) (n : Nat), reachableLaw s → runsTo s n t → reachableLaw t) ∧
  (∀ s t : State, s.input.rst = true → transportLaw s → step s = .next t → reachableLaw t)

/-- R20, R36 to R41: the reset state has the invariants. -/
def Obligations.ResetMeetsTheLaw : Prop := reachableLaw State.reset
end

