-- ==== Sys2Proof/Laws/Config.lean ====
section
/-! SUPPORT. What is known of the machine's parameters (00_scope.md R8, R9), and the counter loads that fit their register. -/

namespace Sys2Proof.Machine

/-- The constraints of R9 for parameters that pass the check. -/
theorem values_spec_of_wellFormed (v : Config.Values) (h : v.wellFormed = true) :
    1 ≤ v.fMs ∧ v.settleMs = 30 ∧ 1 ≤ v.minInterval ∧ v.minInterval ≤ v.baseInterval ∧ 1 ≤ v.speedInc ∧
      7 * v.speedInc < 2 ^ 16 ∧ v.settleCount < 2 ^ 32 ∧ v.baseInterval * v.fMs < 2 ^ 32 := by
  simp only [Config.Values.wellFormed, Bool.and_eq_true, decide_eq_true_eq] at h
  omega

/-- The constraints of R9 for this machine. -/
theorem values_spec :
    1 ≤ Config.values.fMs ∧ Config.values.settleMs = 30 ∧ 1 ≤ Config.values.minInterval ∧
      Config.values.minInterval ≤ Config.values.baseInterval ∧ 1 ≤ Config.values.speedInc ∧
      7 * Config.values.speedInc < 2 ^ 16 ∧ Config.values.settleCount < 2 ^ 32 ∧
      Config.values.baseInterval * Config.values.fMs < 2 ^ 32 :=
  values_spec_of_wellFormed _ Config.params.ok

/-- The settle count is loaded whole. -/
theorem settleCycles_toNat : (settleCycles Config.values).toNat = Config.values.settleCount := by
  have h := values_spec.2.2.2.2.2.2.1
  simp only [settleCycles, BitVec.toNat_ofNat]
  exact Nat.mod_eq_of_lt h

/-- The tick delay is loaded whole. -/
theorem intervalCycles_toNat (spd : Speed) :
    (intervalCycles Config.values spd).toNat = intervalCount Config.values spd := by
  have h := values_spec
  have hms : intervalMs Config.values spd ≤ Config.values.baseInterval := by
    unfold intervalMs; split <;> omega
  have hle : intervalCount Config.values spd ≤ Config.values.baseInterval * Config.values.fMs :=
    Nat.mul_le_mul_right _ hms
  simp only [intervalCycles, BitVec.toNat_ofNat]
  exact Nat.mod_eq_of_lt (by omega)

end Sys2Proof.Machine
end

