-- ==== Sys2Proof/Laws/Memory.lean ====
section
/-! SUPPORT. The transport register space: a read after a write, and the canonical form that every write keeps. -/

namespace Sys2Proof.Machine

/-- A register reads as what was last written to it. -/
@[simp] theorem Memory.read_write_same (m : Memory) (a : Nat) (v : Byte) : (Memory.write m a v).read a = some v := by
  induction m with
  | nil => simp [Memory.write, Memory.read]
  | cons entry rest ih =>
    obtain ⟨k, w⟩ := entry
    by_cases h1 : a < k
    · simp [Memory.write, Memory.read, h1]
    · by_cases h2 : a = k
      · simp [Memory.write, Memory.read, h2]
      · have h3 : k ≠ a := fun e => h2 e.symm
        simp [Memory.write, Memory.read, h1, h2, h3, ih]

/-- A write leaves every other register as it was. -/
theorem Memory.read_write_of_ne (m : Memory) (a b : Nat) (v : Byte) (h : b ≠ a) :
    (Memory.write m a v).read b = m.read b := by
  induction m with
  | nil => simp [Memory.write, Memory.read, Ne.symm h]
  | cons entry rest ih =>
    obtain ⟨k, w⟩ := entry
    by_cases h1 : a < k
    · simp [Memory.write, Memory.read, h1, Ne.symm h]
    · by_cases h2 : a = k
      · subst h2; simp [Memory.write, Memory.read, Ne.symm h]
      · simp only [Memory.write, h1, h2, if_false, Memory.read, ih]

/-- A write into a list that rises from `lo` on, to a register not below `lo`, leaves a list that rises from `lo` on. -/
theorem Memory.wfFrom_write (m : Memory) (lo a : Nat) (v : Byte) (hm : Memory.wfFrom lo m = true) (hlo : lo ≤ a)
    (ha : a < 256) : Memory.wfFrom lo (Memory.write m a v) = true := by
  induction m generalizing lo with
  | nil => simp [Memory.write, Memory.wfFrom, hlo, ha]
  | cons entry rest ih =>
    obtain ⟨k, w⟩ := entry
    simp only [Memory.wfFrom, Bool.and_eq_true, decide_eq_true_eq] at hm
    obtain ⟨⟨h1, h2⟩, h3⟩ := hm
    by_cases hk : a < k
    · simp only [Memory.write, hk, if_true, Memory.wfFrom, Bool.and_eq_true, decide_eq_true_eq]
      exact ⟨⟨hlo, ha⟩, ⟨hk, h2⟩, h3⟩
    · by_cases he : a = k
      · subst he
        simp only [Memory.write, hk, if_false, if_true, Memory.wfFrom, Bool.and_eq_true, decide_eq_true_eq]
        exact ⟨⟨h1, h2⟩, h3⟩
      · simp only [Memory.write, hk, he, if_false, Memory.wfFrom, Bool.and_eq_true, decide_eq_true_eq]
        exact ⟨⟨h1, h2⟩, ih (k + 1) h3 (by omega)⟩

/-- Every write keeps the canonical form. -/
theorem Memory.wf_write (m : Memory) (reg v : Byte) (hm : m.wf = true) : (Memory.write m reg.toNat v).wf = true :=
  Memory.wfFrom_write m 0 reg.toNat v hm (Nat.zero_le _) reg.isLt

/-- The memory of the reset state has the canonical form. -/
theorem Memory.wf_reset : State.reset.tx.wf = true := rfl

end Sys2Proof.Machine
end

