-- ==== Sys2Proof/Laws/State.lean ====
section
/-! SUPPORT. What each update does to each field: one lemma a field an update, so that no later proof unfolds an update. -/

namespace Sys2Proof.Machine

variable (s : State)

/-! ### `setFb` -/

@[simp] theorem State.setFb_fb (v : Vector Byte 8) : (s.setFb v).fb = v := rfl
@[simp] theorem State.setFb_ar (v : Vector Byte 8) : (s.setFb v).ar = s.ar := rfl
@[simp] theorem State.setFb_gs (v : Vector Byte 8) : (s.setFb v).gs = s.gs := rfl
@[simp] theorem State.setFb_spd (v : Vector Byte 8) : (s.setFb v).spd = s.spd := rfl
@[simp] theorem State.setFb_pf (v : Vector Byte 8) : (s.setFb v).pf = s.pf := rfl
@[simp] theorem State.setFb_sy1 (v : Vector Byte 8) : (s.setFb v).sy1 = s.sy1 := rfl
@[simp] theorem State.setFb_sy2 (v : Vector Byte 8) : (s.setFb v).sy2 = s.sy2 := rfl
@[simp] theorem State.setFb_prev (v : Vector Byte 8) : (s.setFb v).prev = s.prev := rfl
@[simp] theorem State.setFb_ph (v : Vector Byte 8) : (s.setFb v).ph = s.ph := rfl
@[simp] theorem State.setFb_cnt (v : Vector Byte 8) : (s.setFb v).cnt = s.cnt := rfl
@[simp] theorem State.setFb_ri (v : Vector Byte 8) : (s.setFb v).ri = s.ri := rfl
@[simp] theorem State.setFb_tx (v : Vector Byte 8) : (s.setFb v).tx = s.tx := rfl
@[simp] theorem State.setFb_stim (v : Vector Byte 8) : (s.setFb v).stim = s.stim := rfl
@[simp] theorem State.setFb_cycle (v : Vector Byte 8) : (s.setFb v).cycle = s.cycle := rfl
@[simp] theorem State.setFb_inputAt (v : Vector Byte 8) (k : Nat) : (s.setFb v).inputAt k = s.inputAt k := rfl
@[simp] theorem State.setFb_input (v : Vector Byte 8) : (s.setFb v).input = s.input := rfl

/-! ### `setAr` -/

@[simp] theorem State.setAr_fb (a : Idx) : (s.setAr a).fb = s.fb := rfl
@[simp] theorem State.setAr_ar (a : Idx) : (s.setAr a).ar = a := rfl
@[simp] theorem State.setAr_gs (a : Idx) : (s.setAr a).gs = s.gs := rfl
@[simp] theorem State.setAr_spd (a : Idx) : (s.setAr a).spd = s.spd := rfl
@[simp] theorem State.setAr_pf (a : Idx) : (s.setAr a).pf = s.pf := rfl
@[simp] theorem State.setAr_sy1 (a : Idx) : (s.setAr a).sy1 = s.sy1 := rfl
@[simp] theorem State.setAr_sy2 (a : Idx) : (s.setAr a).sy2 = s.sy2 := rfl
@[simp] theorem State.setAr_prev (a : Idx) : (s.setAr a).prev = s.prev := rfl
@[simp] theorem State.setAr_ph (a : Idx) : (s.setAr a).ph = s.ph := rfl
@[simp] theorem State.setAr_cnt (a : Idx) : (s.setAr a).cnt = s.cnt := rfl
@[simp] theorem State.setAr_ri (a : Idx) : (s.setAr a).ri = s.ri := rfl
@[simp] theorem State.setAr_tx (a : Idx) : (s.setAr a).tx = s.tx := rfl
@[simp] theorem State.setAr_stim (a : Idx) : (s.setAr a).stim = s.stim := rfl
@[simp] theorem State.setAr_cycle (a : Idx) : (s.setAr a).cycle = s.cycle := rfl
@[simp] theorem State.setAr_row (a : Idx) (r' : Idx) : (s.setAr a).row r' = s.row r' := rfl
@[simp] theorem State.setAr_inputAt (a : Idx) (k : Nat) : (s.setAr a).inputAt k = s.inputAt k := rfl
@[simp] theorem State.setAr_input (a : Idx) : (s.setAr a).input = s.input := rfl

/-! ### `setGs` -/

@[simp] theorem State.setGs_fb (g : GameState) : (s.setGs g).fb = s.fb := rfl
@[simp] theorem State.setGs_ar (g : GameState) : (s.setGs g).ar = s.ar := rfl
@[simp] theorem State.setGs_gs (g : GameState) : (s.setGs g).gs = g := rfl
@[simp] theorem State.setGs_spd (g : GameState) : (s.setGs g).spd = s.spd := rfl
@[simp] theorem State.setGs_pf (g : GameState) : (s.setGs g).pf = s.pf := rfl
@[simp] theorem State.setGs_sy1 (g : GameState) : (s.setGs g).sy1 = s.sy1 := rfl
@[simp] theorem State.setGs_sy2 (g : GameState) : (s.setGs g).sy2 = s.sy2 := rfl
@[simp] theorem State.setGs_prev (g : GameState) : (s.setGs g).prev = s.prev := rfl
@[simp] theorem State.setGs_ph (g : GameState) : (s.setGs g).ph = s.ph := rfl
@[simp] theorem State.setGs_cnt (g : GameState) : (s.setGs g).cnt = s.cnt := rfl
@[simp] theorem State.setGs_ri (g : GameState) : (s.setGs g).ri = s.ri := rfl
@[simp] theorem State.setGs_tx (g : GameState) : (s.setGs g).tx = s.tx := rfl
@[simp] theorem State.setGs_stim (g : GameState) : (s.setGs g).stim = s.stim := rfl
@[simp] theorem State.setGs_cycle (g : GameState) : (s.setGs g).cycle = s.cycle := rfl
@[simp] theorem State.setGs_row (g : GameState) (r' : Idx) : (s.setGs g).row r' = s.row r' := rfl
@[simp] theorem State.setGs_inputAt (g : GameState) (k : Nat) : (s.setGs g).inputAt k = s.inputAt k := rfl
@[simp] theorem State.setGs_input (g : GameState) : (s.setGs g).input = s.input := rfl

/-! ### `setSpd` -/

@[simp] theorem State.setSpd_fb (v : Speed) : (s.setSpd v).fb = s.fb := rfl
@[simp] theorem State.setSpd_ar (v : Speed) : (s.setSpd v).ar = s.ar := rfl
@[simp] theorem State.setSpd_gs (v : Speed) : (s.setSpd v).gs = s.gs := rfl
@[simp] theorem State.setSpd_spd (v : Speed) : (s.setSpd v).spd = v := rfl
@[simp] theorem State.setSpd_pf (v : Speed) : (s.setSpd v).pf = s.pf := rfl
@[simp] theorem State.setSpd_sy1 (v : Speed) : (s.setSpd v).sy1 = s.sy1 := rfl
@[simp] theorem State.setSpd_sy2 (v : Speed) : (s.setSpd v).sy2 = s.sy2 := rfl
@[simp] theorem State.setSpd_prev (v : Speed) : (s.setSpd v).prev = s.prev := rfl
@[simp] theorem State.setSpd_ph (v : Speed) : (s.setSpd v).ph = s.ph := rfl
@[simp] theorem State.setSpd_cnt (v : Speed) : (s.setSpd v).cnt = s.cnt := rfl
@[simp] theorem State.setSpd_ri (v : Speed) : (s.setSpd v).ri = s.ri := rfl
@[simp] theorem State.setSpd_tx (v : Speed) : (s.setSpd v).tx = s.tx := rfl
@[simp] theorem State.setSpd_stim (v : Speed) : (s.setSpd v).stim = s.stim := rfl
@[simp] theorem State.setSpd_cycle (v : Speed) : (s.setSpd v).cycle = s.cycle := rfl
@[simp] theorem State.setSpd_row (v : Speed) (r' : Idx) : (s.setSpd v).row r' = s.row r' := rfl
@[simp] theorem State.setSpd_inputAt (v : Speed) (k : Nat) : (s.setSpd v).inputAt k = s.inputAt k := rfl
@[simp] theorem State.setSpd_input (v : Speed) : (s.setSpd v).input = s.input := rfl

/-! ### `setPf` -/

@[simp] theorem State.setPf_fb (b : Bool) : (s.setPf b).fb = s.fb := rfl
@[simp] theorem State.setPf_ar (b : Bool) : (s.setPf b).ar = s.ar := rfl
@[simp] theorem State.setPf_gs (b : Bool) : (s.setPf b).gs = s.gs := rfl
@[simp] theorem State.setPf_spd (b : Bool) : (s.setPf b).spd = s.spd := rfl
@[simp] theorem State.setPf_pf (b : Bool) : (s.setPf b).pf = b := rfl
@[simp] theorem State.setPf_sy1 (b : Bool) : (s.setPf b).sy1 = s.sy1 := rfl
@[simp] theorem State.setPf_sy2 (b : Bool) : (s.setPf b).sy2 = s.sy2 := rfl
@[simp] theorem State.setPf_prev (b : Bool) : (s.setPf b).prev = s.prev := rfl
@[simp] theorem State.setPf_ph (b : Bool) : (s.setPf b).ph = s.ph := rfl
@[simp] theorem State.setPf_cnt (b : Bool) : (s.setPf b).cnt = s.cnt := rfl
@[simp] theorem State.setPf_ri (b : Bool) : (s.setPf b).ri = s.ri := rfl
@[simp] theorem State.setPf_tx (b : Bool) : (s.setPf b).tx = s.tx := rfl
@[simp] theorem State.setPf_stim (b : Bool) : (s.setPf b).stim = s.stim := rfl
@[simp] theorem State.setPf_cycle (b : Bool) : (s.setPf b).cycle = s.cycle := rfl
@[simp] theorem State.setPf_row (b : Bool) (r' : Idx) : (s.setPf b).row r' = s.row r' := rfl
@[simp] theorem State.setPf_inputAt (b : Bool) (k : Nat) : (s.setPf b).inputAt k = s.inputAt k := rfl
@[simp] theorem State.setPf_input (b : Bool) : (s.setPf b).input = s.input := rfl

/-! ### `setSync` -/

@[simp] theorem State.setSync_fb (a b c : Bool) : (s.setSync a b c).fb = s.fb := rfl
@[simp] theorem State.setSync_ar (a b c : Bool) : (s.setSync a b c).ar = s.ar := rfl
@[simp] theorem State.setSync_gs (a b c : Bool) : (s.setSync a b c).gs = s.gs := rfl
@[simp] theorem State.setSync_spd (a b c : Bool) : (s.setSync a b c).spd = s.spd := rfl
@[simp] theorem State.setSync_pf (a b c : Bool) : (s.setSync a b c).pf = s.pf := rfl
@[simp] theorem State.setSync_sy1 (a b c : Bool) : (s.setSync a b c).sy1 = a := rfl
@[simp] theorem State.setSync_sy2 (a b c : Bool) : (s.setSync a b c).sy2 = b := rfl
@[simp] theorem State.setSync_prev (a b c : Bool) : (s.setSync a b c).prev = c := rfl
@[simp] theorem State.setSync_ph (a b c : Bool) : (s.setSync a b c).ph = s.ph := rfl
@[simp] theorem State.setSync_cnt (a b c : Bool) : (s.setSync a b c).cnt = s.cnt := rfl
@[simp] theorem State.setSync_ri (a b c : Bool) : (s.setSync a b c).ri = s.ri := rfl
@[simp] theorem State.setSync_tx (a b c : Bool) : (s.setSync a b c).tx = s.tx := rfl
@[simp] theorem State.setSync_stim (a b c : Bool) : (s.setSync a b c).stim = s.stim := rfl
@[simp] theorem State.setSync_cycle (a b c : Bool) : (s.setSync a b c).cycle = s.cycle := rfl
@[simp] theorem State.setSync_row (a b c : Bool) (r' : Idx) : (s.setSync a b c).row r' = s.row r' := rfl
@[simp] theorem State.setSync_inputAt (a b c : Bool) (k : Nat) : (s.setSync a b c).inputAt k = s.inputAt k := rfl
@[simp] theorem State.setSync_input (a b c : Bool) : (s.setSync a b c).input = s.input := rfl

/-! ### `setPh` -/

@[simp] theorem State.setPh_fb (p : Phase) : (s.setPh p).fb = s.fb := rfl
@[simp] theorem State.setPh_ar (p : Phase) : (s.setPh p).ar = s.ar := rfl
@[simp] theorem State.setPh_gs (p : Phase) : (s.setPh p).gs = s.gs := rfl
@[simp] theorem State.setPh_spd (p : Phase) : (s.setPh p).spd = s.spd := rfl
@[simp] theorem State.setPh_pf (p : Phase) : (s.setPh p).pf = s.pf := rfl
@[simp] theorem State.setPh_sy1 (p : Phase) : (s.setPh p).sy1 = s.sy1 := rfl
@[simp] theorem State.setPh_sy2 (p : Phase) : (s.setPh p).sy2 = s.sy2 := rfl
@[simp] theorem State.setPh_prev (p : Phase) : (s.setPh p).prev = s.prev := rfl
@[simp] theorem State.setPh_ph (p : Phase) : (s.setPh p).ph = p := rfl
@[simp] theorem State.setPh_cnt (p : Phase) : (s.setPh p).cnt = s.cnt := rfl
@[simp] theorem State.setPh_ri (p : Phase) : (s.setPh p).ri = s.ri := rfl
@[simp] theorem State.setPh_tx (p : Phase) : (s.setPh p).tx = s.tx := rfl
@[simp] theorem State.setPh_stim (p : Phase) : (s.setPh p).stim = s.stim := rfl
@[simp] theorem State.setPh_cycle (p : Phase) : (s.setPh p).cycle = s.cycle := rfl
@[simp] theorem State.setPh_row (p : Phase) (r' : Idx) : (s.setPh p).row r' = s.row r' := rfl
@[simp] theorem State.setPh_inputAt (p : Phase) (k : Nat) : (s.setPh p).inputAt k = s.inputAt k := rfl
@[simp] theorem State.setPh_input (p : Phase) : (s.setPh p).input = s.input := rfl

/-! ### `setCnt` -/

@[simp] theorem State.setCnt_fb (c : Count) : (s.setCnt c).fb = s.fb := rfl
@[simp] theorem State.setCnt_ar (c : Count) : (s.setCnt c).ar = s.ar := rfl
@[simp] theorem State.setCnt_gs (c : Count) : (s.setCnt c).gs = s.gs := rfl
@[simp] theorem State.setCnt_spd (c : Count) : (s.setCnt c).spd = s.spd := rfl
@[simp] theorem State.setCnt_pf (c : Count) : (s.setCnt c).pf = s.pf := rfl
@[simp] theorem State.setCnt_sy1 (c : Count) : (s.setCnt c).sy1 = s.sy1 := rfl
@[simp] theorem State.setCnt_sy2 (c : Count) : (s.setCnt c).sy2 = s.sy2 := rfl
@[simp] theorem State.setCnt_prev (c : Count) : (s.setCnt c).prev = s.prev := rfl
@[simp] theorem State.setCnt_ph (c : Count) : (s.setCnt c).ph = s.ph := rfl
@[simp] theorem State.setCnt_cnt (c : Count) : (s.setCnt c).cnt = c := rfl
@[simp] theorem State.setCnt_ri (c : Count) : (s.setCnt c).ri = s.ri := rfl
@[simp] theorem State.setCnt_tx (c : Count) : (s.setCnt c).tx = s.tx := rfl
@[simp] theorem State.setCnt_stim (c : Count) : (s.setCnt c).stim = s.stim := rfl
@[simp] theorem State.setCnt_cycle (c : Count) : (s.setCnt c).cycle = s.cycle := rfl
@[simp] theorem State.setCnt_row (c : Count) (r' : Idx) : (s.setCnt c).row r' = s.row r' := rfl
@[simp] theorem State.setCnt_inputAt (c : Count) (k : Nat) : (s.setCnt c).inputAt k = s.inputAt k := rfl
@[simp] theorem State.setCnt_input (c : Count) : (s.setCnt c).input = s.input := rfl

/-! ### `setRi` -/

@[simp] theorem State.setRi_fb (r : Idx) : (s.setRi r).fb = s.fb := rfl
@[simp] theorem State.setRi_ar (r : Idx) : (s.setRi r).ar = s.ar := rfl
@[simp] theorem State.setRi_gs (r : Idx) : (s.setRi r).gs = s.gs := rfl
@[simp] theorem State.setRi_spd (r : Idx) : (s.setRi r).spd = s.spd := rfl
@[simp] theorem State.setRi_pf (r : Idx) : (s.setRi r).pf = s.pf := rfl
@[simp] theorem State.setRi_sy1 (r : Idx) : (s.setRi r).sy1 = s.sy1 := rfl
@[simp] theorem State.setRi_sy2 (r : Idx) : (s.setRi r).sy2 = s.sy2 := rfl
@[simp] theorem State.setRi_prev (r : Idx) : (s.setRi r).prev = s.prev := rfl
@[simp] theorem State.setRi_ph (r : Idx) : (s.setRi r).ph = s.ph := rfl
@[simp] theorem State.setRi_cnt (r : Idx) : (s.setRi r).cnt = s.cnt := rfl
@[simp] theorem State.setRi_ri (r : Idx) : (s.setRi r).ri = r := rfl
@[simp] theorem State.setRi_tx (r : Idx) : (s.setRi r).tx = s.tx := rfl
@[simp] theorem State.setRi_stim (r : Idx) : (s.setRi r).stim = s.stim := rfl
@[simp] theorem State.setRi_cycle (r : Idx) : (s.setRi r).cycle = s.cycle := rfl
@[simp] theorem State.setRi_row (r : Idx) (r' : Idx) : (s.setRi r).row r' = s.row r' := rfl
@[simp] theorem State.setRi_inputAt (r : Idx) (k : Nat) : (s.setRi r).inputAt k = s.inputAt k := rfl
@[simp] theorem State.setRi_input (r : Idx) : (s.setRi r).input = s.input := rfl

/-! ### `setTx` -/

@[simp] theorem State.setTx_fb (m : Memory) : (s.setTx m).fb = s.fb := rfl
@[simp] theorem State.setTx_ar (m : Memory) : (s.setTx m).ar = s.ar := rfl
@[simp] theorem State.setTx_gs (m : Memory) : (s.setTx m).gs = s.gs := rfl
@[simp] theorem State.setTx_spd (m : Memory) : (s.setTx m).spd = s.spd := rfl
@[simp] theorem State.setTx_pf (m : Memory) : (s.setTx m).pf = s.pf := rfl
@[simp] theorem State.setTx_sy1 (m : Memory) : (s.setTx m).sy1 = s.sy1 := rfl
@[simp] theorem State.setTx_sy2 (m : Memory) : (s.setTx m).sy2 = s.sy2 := rfl
@[simp] theorem State.setTx_prev (m : Memory) : (s.setTx m).prev = s.prev := rfl
@[simp] theorem State.setTx_ph (m : Memory) : (s.setTx m).ph = s.ph := rfl
@[simp] theorem State.setTx_cnt (m : Memory) : (s.setTx m).cnt = s.cnt := rfl
@[simp] theorem State.setTx_ri (m : Memory) : (s.setTx m).ri = s.ri := rfl
@[simp] theorem State.setTx_tx (m : Memory) : (s.setTx m).tx = m := rfl
@[simp] theorem State.setTx_stim (m : Memory) : (s.setTx m).stim = s.stim := rfl
@[simp] theorem State.setTx_cycle (m : Memory) : (s.setTx m).cycle = s.cycle := rfl
@[simp] theorem State.setTx_row (m : Memory) (r' : Idx) : (s.setTx m).row r' = s.row r' := rfl
@[simp] theorem State.setTx_inputAt (m : Memory) (k : Nat) : (s.setTx m).inputAt k = s.inputAt k := rfl
@[simp] theorem State.setTx_input (m : Memory) : (s.setTx m).input = s.input := rfl

/-! ### `setEnv` -/

@[simp] theorem State.setEnv_fb (l : List Input) (n : Nat) : (s.setEnv l n).fb = s.fb := rfl
@[simp] theorem State.setEnv_ar (l : List Input) (n : Nat) : (s.setEnv l n).ar = s.ar := rfl
@[simp] theorem State.setEnv_gs (l : List Input) (n : Nat) : (s.setEnv l n).gs = s.gs := rfl
@[simp] theorem State.setEnv_spd (l : List Input) (n : Nat) : (s.setEnv l n).spd = s.spd := rfl
@[simp] theorem State.setEnv_pf (l : List Input) (n : Nat) : (s.setEnv l n).pf = s.pf := rfl
@[simp] theorem State.setEnv_sy1 (l : List Input) (n : Nat) : (s.setEnv l n).sy1 = s.sy1 := rfl
@[simp] theorem State.setEnv_sy2 (l : List Input) (n : Nat) : (s.setEnv l n).sy2 = s.sy2 := rfl
@[simp] theorem State.setEnv_prev (l : List Input) (n : Nat) : (s.setEnv l n).prev = s.prev := rfl
@[simp] theorem State.setEnv_ph (l : List Input) (n : Nat) : (s.setEnv l n).ph = s.ph := rfl
@[simp] theorem State.setEnv_cnt (l : List Input) (n : Nat) : (s.setEnv l n).cnt = s.cnt := rfl
@[simp] theorem State.setEnv_ri (l : List Input) (n : Nat) : (s.setEnv l n).ri = s.ri := rfl
@[simp] theorem State.setEnv_tx (l : List Input) (n : Nat) : (s.setEnv l n).tx = s.tx := rfl
@[simp] theorem State.setEnv_stim (l : List Input) (n : Nat) : (s.setEnv l n).stim = l := rfl
@[simp] theorem State.setEnv_cycle (l : List Input) (n : Nat) : (s.setEnv l n).cycle = n := rfl
@[simp] theorem State.setEnv_row (l : List Input) (n : Nat) (r' : Idx) : (s.setEnv l n).row r' = s.row r' := rfl

/-! ### `setRow` -/

@[simp] theorem State.setRow_fb (r : Idx) (v : Byte) : (s.setRow r v).fb = s.fb.set r.val v := rfl
@[simp] theorem State.setRow_ar (r : Idx) (v : Byte) : (s.setRow r v).ar = s.ar := rfl
@[simp] theorem State.setRow_gs (r : Idx) (v : Byte) : (s.setRow r v).gs = s.gs := rfl
@[simp] theorem State.setRow_spd (r : Idx) (v : Byte) : (s.setRow r v).spd = s.spd := rfl
@[simp] theorem State.setRow_pf (r : Idx) (v : Byte) : (s.setRow r v).pf = s.pf := rfl
@[simp] theorem State.setRow_sy1 (r : Idx) (v : Byte) : (s.setRow r v).sy1 = s.sy1 := rfl
@[simp] theorem State.setRow_sy2 (r : Idx) (v : Byte) : (s.setRow r v).sy2 = s.sy2 := rfl
@[simp] theorem State.setRow_prev (r : Idx) (v : Byte) : (s.setRow r v).prev = s.prev := rfl
@[simp] theorem State.setRow_ph (r : Idx) (v : Byte) : (s.setRow r v).ph = s.ph := rfl
@[simp] theorem State.setRow_cnt (r : Idx) (v : Byte) : (s.setRow r v).cnt = s.cnt := rfl
@[simp] theorem State.setRow_ri (r : Idx) (v : Byte) : (s.setRow r v).ri = s.ri := rfl
@[simp] theorem State.setRow_tx (r : Idx) (v : Byte) : (s.setRow r v).tx = s.tx := rfl
@[simp] theorem State.setRow_stim (r : Idx) (v : Byte) : (s.setRow r v).stim = s.stim := rfl
@[simp] theorem State.setRow_cycle (r : Idx) (v : Byte) : (s.setRow r v).cycle = s.cycle := rfl
@[simp] theorem State.setRow_inputAt (r : Idx) (v : Byte) (k : Nat) : (s.setRow r v).inputAt k = s.inputAt k := rfl
@[simp] theorem State.setRow_input (r : Idx) (v : Byte) : (s.setRow r v).input = s.input := rfl

/-! ### `initGame` -/

@[simp] theorem State.initGame_ar : s.initGame.ar = 7 := rfl
@[simp] theorem State.initGame_gs : s.initGame.gs = .inGame := rfl
@[simp] theorem State.initGame_spd : s.initGame.spd = 0#16 := rfl
@[simp] theorem State.initGame_pf : s.initGame.pf = s.pf := rfl
@[simp] theorem State.initGame_sy1 : s.initGame.sy1 = s.sy1 := rfl
@[simp] theorem State.initGame_sy2 : s.initGame.sy2 = s.sy2 := rfl
@[simp] theorem State.initGame_prev : s.initGame.prev = s.prev := rfl
@[simp] theorem State.initGame_ph : s.initGame.ph = s.ph := rfl
@[simp] theorem State.initGame_cnt : s.initGame.cnt = s.cnt := rfl
@[simp] theorem State.initGame_ri : s.initGame.ri = s.ri := rfl
@[simp] theorem State.initGame_tx : s.initGame.tx = s.tx := rfl
@[simp] theorem State.initGame_stim : s.initGame.stim = s.stim := rfl
@[simp] theorem State.initGame_cycle : s.initGame.cycle = s.cycle := rfl

/-! ### Rows after a row write (R13, R51) -/

@[simp] theorem State.setRow_row_same (r : Idx) (v : Byte) : (s.setRow r v).row r = v := by
  simp [State.row]

theorem State.setRow_row_of_ne (r r' : Idx) (v : Byte) (h : r' ≠ r) : (s.setRow r v).row r' = s.row r' := by
  have hne : r.val ≠ r'.val := fun e => h (Fin.ext e.symm)
  simp [State.row, Vector.getElem_set_ne, hne]

theorem State.setRow_row (r r' : Idx) (v : Byte) : (s.setRow r v).row r' = if r' = r then v else s.row r' := by
  by_cases h : r' = r
  · subst h; simp
  · simp [h, State.setRow_row_of_ne]

@[simp] theorem State.clearFb_row (r : Idx) : s.clearFb.row r = 0x00#8 := by
  simp [State.clearFb, State.row]

/-- Two frame buffers with the same rows are the same. -/
theorem State.fb_ext (t : State) (h : ∀ r, s.row r = t.row r) : s.fb = t.fb := by
  apply Vector.ext
  intro i hi
  exact h ⟨i, hi⟩

/-! ### The composite updates, as the single ones they are made of -/

@[simp] theorem State.takeEdge_eq : s.takeEdge = s.setPf true := rfl
@[simp] theorem State.startRender_eq (p : Phase) : s.startRender p = (s.setPh p).setRi 0 := rfl
@[simp] theorem State.countDown_eq : s.countDown = s.setCnt (s.cnt - 1#32) := rfl
@[simp] theorem State.txWrite_eq (a v : Byte) : s.txWrite a v = s.setTx (s.tx.write a.toNat v) := rfl
theorem State.clearFb_eq : s.clearFb = s.setFb (Vector.replicate 8 0x00#8) := rfl
theorem State.initGame_eq :
    s.initGame = (((s.clearFb.setRow 7 seed).setSpd 0#16).setAr 7).setGs .inGame := rfl
@[simp] theorem State.advance_eq : s.advance = s.setEnv s.stim.tail (s.cycle + 1) := rfl

/-- The rows after `init_game` (R123). -/
theorem State.initGame_row (r : Idx) : s.initGame.row r = if r = 7 then seed else 0x00#8 := by
  show ((s.clearFb.setRow 7 seed).row r) = _
  rw [State.setRow_row, State.clearFb_row]

/-! ### `joinWrites` -/

variable (q a e : State)

@[simp] theorem joinWrites_fb : (joinWrites s q a e).fb = q.fb := rfl
@[simp] theorem joinWrites_ar : (joinWrites s q a e).ar = q.ar := rfl
@[simp] theorem joinWrites_gs : (joinWrites s q a e).gs = q.gs := rfl
@[simp] theorem joinWrites_spd : (joinWrites s q a e).spd = q.spd := rfl
@[simp] theorem joinWrites_pf : (joinWrites s q a e).pf = if s.clearNow then q.pf else e.pf := rfl
@[simp] theorem joinWrites_sy1 : (joinWrites s q a e).sy1 = a.sy1 := rfl
@[simp] theorem joinWrites_sy2 : (joinWrites s q a e).sy2 = a.sy2 := rfl
@[simp] theorem joinWrites_prev : (joinWrites s q a e).prev = a.prev := rfl
@[simp] theorem joinWrites_ph : (joinWrites s q a e).ph = q.ph := rfl
@[simp] theorem joinWrites_cnt : (joinWrites s q a e).cnt = q.cnt := rfl
@[simp] theorem joinWrites_ri : (joinWrites s q a e).ri = q.ri := rfl
@[simp] theorem joinWrites_tx : (joinWrites s q a e).tx = q.tx := rfl
@[simp] theorem joinWrites_stim : (joinWrites s q a e).stim = q.stim := rfl
@[simp] theorem joinWrites_cycle : (joinWrites s q a e).cycle = q.cycle := rfl
@[simp] theorem joinWrites_row (r : Idx) : (joinWrites s q a e).row r = q.row r := rfl

end Sys2Proof.Machine
end

