-- ==== Sys2Proof/Laws/Ops.lean ====
section
/-! SUPPORT. For each shared operation one lemma that says everything it can do; later proofs cite these. -/

namespace Sys2Proof.Machine

/-- The packed pattern of a row is the row: `row_bits(row) = FB[row]` for every byte. -/
theorem packed_cells (p : Byte) :
    columns.foldl (fun b c => if cell p c then b ||| colBit c else b) 0x00#8 = p := by
  revert p; decide

@[simp] theorem State.rowBits_eq_row (s : State) (r : Idx) : s.rowBits r = s.row r := packed_cells (s.row r)

/-- The transport register of row `r` is `r + 1`. -/
@[simp] theorem regNumber_toNat (r : Idx) : (regNumber r).toNat = r.val + 1 := by
  revert r; decide

/-- The Support Row of rows 0 to 6. -/
theorem State.support_of_lt (s : State) (a : Idx) (h : a.val < 7) : s.support a = s.row ⟨a.val + 1, by omega⟩ := by
  simp [State.support, h]

/-- The floor under row 7. -/
@[simp] theorem State.support_seven (s : State) : s.support 7 = 0xFF#8 := by
  simp [State.support]

/-- What a render step does: nothing without `rdy`, else an accepted write, and then the next row or the end of the pass. -/
theorem State.renderStep_cases (s : State) (last : State → State) :
    (s.input.rdy = false ∧ s.renderStep last = s) ∨
    (s.input.rdy = true ∧ s.ri ≠ 7 ∧
      s.renderStep last = (s.setTx (s.tx.write (s.ri.val + 1) (s.row s.ri))).setRi (s.ri + 1)) ∨
    (s.input.rdy = true ∧ s.ri = 7 ∧
      s.renderStep last = last (s.setTx (s.tx.write (s.ri.val + 1) (s.row s.ri)))) := by
  by_cases hr : s.input.rdy = true
  · by_cases h7 : s.ri = 7
    · exact .inr (.inr ⟨hr, h7, by simp [State.renderStep, hr, h7]⟩)
    · exact .inr (.inl ⟨hr, h7, by simp [State.renderStep, hr, h7]⟩)
  · exact .inl ⟨by simpa using hr, by simp [State.renderStep, hr]⟩

/-- What a cut does: the surviving row is written in every outcome; the game ends, or the bar of the surviving width
replaces the row above. -/
theorem pressCutWith_cases (v : Config.Values) (s : State) :
    ((s.survivors = 0x00#8 ∨ s.ar = 0) ∧
      pressCutWith v s = (((s.setRow s.ar s.survivors).setGs .ended).setPh .renderP).setRi 0) ∨
    ((s.survivors ≠ 0x00#8 ∧ s.ar ≠ 0) ∧
      pressCutWith v s =
        ((((((s.setRow s.ar s.survivors).setRow (rowAbove s.ar) (spawn (popcount s.survivors))).setAr
          (rowAbove s.ar)).setSpd (s.spd + speedIncrement v)).setPh .renderP).setRi 0)) := by
  by_cases h : s.survivors = 0x00#8 ∨ s.ar = 0
  · left
    refine ⟨h, ?_⟩
    have hc : s.cutEnds = true := by simpa [State.cutEnds] using h
    simp [pressCutWith, hc]
  · right
    refine ⟨by simpa [not_or] using h, ?_⟩
    have hc : s.cutEnds = false := by simpa [State.cutEnds, not_or] using h
    simp [pressCutWith, hc]

/-- The row above another one is another row. -/
theorem rowAbove_ne (a : Idx) (h : a ≠ 0) : rowAbove a ≠ a := by
  revert a; decide

/-- What EDGE leaves of `PF` outside the clearing cycle, and what the clear leaves in it. -/
theorem State.nextPf_of_clear (s : State) (h : s.clearNow = true) : s.nextPf = false := by
  simp [State.nextPf, h]

/-- `PF` after a cycle that does not clear. -/
theorem State.nextPf_of_not_clear (s : State) (h : s.clearNow = false) : s.nextPf = (s.fall || s.pf) := by
  cases hf : s.fall <;> simp [State.nextPf, h, hf]

end Sys2Proof.Machine
end

