-- ==== Sys2Proof/Laws/Cycle.lean ====
section
/-! SUPPORT. What one cycle can do, and the input vectors of a run. Later proofs cite `step_cases` and `step_of_op` instead of
unfolding the step. -/

namespace Sys2Proof.Machine

@[simp] theorem Input.ofVec_vec (i : Input) : Input.ofVec i.vec = i := by
  obtain ⟨a, b, c⟩ := i
  cases a <;> cases b <;> cases c <;> rfl

@[simp] theorem Input.vec_rst (i : Input) : i.vec[2] = i.rst := by
  obtain ⟨a, b, c⟩ := i
  cases a <;> cases b <;> cases c <;> rfl

/-- The selection word of a state selects the operation of its phase and Game State. -/
@[simp] theorem decodeSel_selWord (ph : Phase) (gs : GameState) : decodeSel (selWord ph gs) = .ok (sequencerOp ph gs) := by
  cases ph <;> cases gs <;> rfl

/-- The operation of the coming cycle. -/
theorem decodeMain_fetch (s : State) :
    decodeMain s.fetch = .ok (if s.input.rst then .reset else sequencerOp s.ph s.gs) := by
  cases h : s.input.rst <;> simp [decodeMain, decodePin, State.fetch, State.sel, h]

theorem sequencerOp_ne_reset (ph : Phase) (gs : GameState) : sequencerOp ph gs ≠ .reset := by
  cases ph <;> cases gs <;> decide

/-- A cycle with `rst = 1`. -/
theorem step_of_reset (s : State) (h : s.input.rst = true) :
    step s = .next ((State.reset.setTx s.tx).setEnv s.stim.tail (s.cycle + 1)) := by
  have hd : decodeMain s.fetch = .ok .reset := by rw [decodeMain_fetch]; simp [h]
  simp only [step, runCycle, hd]
  rfl

/-- The pending flag of the joined writes. -/
theorem pf_of_cycle (s m : State) (hm : exec (sequencerOp s.ph s.gs) s = .next m) :
    (if s.clearNow then m.pf else (if s.fall && !s.clearNow then s.takeEdge else s).pf) = s.nextPf := by
  by_cases hc : s.clearNow = true
  · have hp : s.ph = .confirm ∧ s.cnt = 0#32 := by simpa [State.clearNow] using hc
    have : m = (s.setPf false).setPh (if s.sy2 then .shift else .press) := by
      have h2 : exec .confirm s = .next m := by rw [hp.1] at hm; exact hm
      simp only [exec, execConfirm, hp.2, if_true, Host.Outcome.next.injEq] at h2
      exact h2.symm
    simp [hc, this, State.nextPf]
  · have hc' : s.clearNow = false := by simpa using hc
    cases hf : s.fall <;> simp [hc', hf, State.nextPf]

/-- A cycle with `rst = 0`: the sequencer operation's state, with the synchronizer shifted, `PF` as R98 says, and the
cycle's input used up. -/
theorem step_of_op (s m : State) (h : s.input.rst = false) (hm : exec (sequencerOp s.ph s.gs) s = .next m) :
    step s = .next (((m.setSync s.input.btn s.sy1 s.sy2).setPf s.nextPf).setEnv m.stim.tail (m.cycle + 1)) := by
  have hd : decodeMain s.fetch = .ok (sequencerOp s.ph s.gs) := by rw [decodeMain_fetch]; simp [h]
  have hs : runCycle s = cycleWith (sequencerOp s.ph s.gs) s := by
    simp only [runCycle, hd]
    cases hop : sequencerOp s.ph s.gs <;> first | rfl | exact absurd hop (sequencerOp_ne_reset _ _)
  rw [step, hs]
  have hsync : exec .sync s = .next (s.setSync s.input.btn s.sy1 s.sy2) := rfl
  have hedge : exec .edge s = .next (if s.fall && !s.clearNow then s.takeEdge else s) := rfl
  simp only [cycleWith, hsync, hedge, hm, andThen, joinWrites, State.advance_eq, pf_of_cycle s m hm]
  rfl

/-- Every operation has a next state, in every state. -/
theorem exec_next (i : Instr) (s : State) : ∃ t, exec i s = .next t := by
  cases i <;> exact ⟨_, rfl⟩

/-- No operation uses up the cycle's input. -/
theorem exec_env (i : Instr) (s t : State) (h : exec i s = .next t) : t.stim = s.stim ∧ t.cycle = s.cycle := by
  have hr (last : State → State) (hl : ∀ u : State, (last u).stim = u.stim ∧ (last u).cycle = u.cycle) :
      (s.renderStep last).stim = s.stim ∧ (s.renderStep last).cycle = s.cycle := by
    obtain ⟨-, e⟩ | ⟨-, -, e⟩ | ⟨-, -, e⟩ := s.renderStep_cases last <;> rw [e] <;> simp [hl]
  cases i with
  | pressCut =>
    cases h
    obtain ⟨-, e⟩ | ⟨-, e⟩ := pressCutWith_cases Config.values s <;> rw [e] <;> simp
  | renderP => cases h; exact hr _ fun _ => ⟨rfl, rfl⟩
  | renderT => cases h; exact hr _ fun _ => ⟨rfl, rfl⟩
  | edge => cases h; split <;> simp
  | poll => cases h; unfold pollWith; split <;> simp
  | confirm => cases h; split <;> simp
  | wait => cases h; split <;> simp
  | _ => cases h; simp

/-- Everything one cycle can do. -/
theorem step_cases (s t : State) (h : step s = .next t) :
    (s.input.rst = true ∧ t = (State.reset.setTx s.tx).setEnv s.stim.tail (s.cycle + 1)) ∨
    (s.input.rst = false ∧ ∃ m, exec (sequencerOp s.ph s.gs) s = .next m ∧
      t = ((m.setSync s.input.btn s.sy1 s.sy2).setPf s.nextPf).setEnv s.stim.tail (s.cycle + 1)) := by
  cases hr : s.input.rst
  · right
    obtain ⟨m, hm⟩ := exec_next (sequencerOp s.ph s.gs) s
    rw [step_of_op s m hr hm, Host.Outcome.next.injEq] at h
    obtain ⟨h1, h2⟩ := exec_env _ _ _ hm
    exact ⟨rfl, m, hm, by rw [← h, h1, h2]⟩
  · left
    rw [step_of_reset s hr, Host.Outcome.next.injEq] at h
    exact ⟨rfl, h.symm⟩

/-- When a cycle's input vector is used up, the vectors to come move up by one. -/
theorem inputAt_of_used_up (s t : State) (h1 : t.stim = s.stim.tail) (h2 : t.cycle = s.cycle + 1) (k : Nat) :
    t.inputAt k = s.inputAt (k + 1) := by
  simp only [State.inputAt, h1, h2]
  have hl : s.stim.tail[k]? = s.stim[k + 1]? := by cases s.stim <;> simp
  rw [hl]
  cases s.stim[k + 1]? with
  | some i => rfl
  | none => simp only [show s.cycle + 1 + k = s.cycle + (k + 1) by omega]

/-- Every cycle uses up one input vector. -/
theorem step_inputAt (s t : State) (h : step s = .next t) (k : Nat) : t.inputAt k = s.inputAt (k + 1) := by
  obtain ⟨-, e⟩ | ⟨-, m, -, e⟩ := step_cases s t h <;> exact inputAt_of_used_up s t (by rw [e]; rfl) (by rw [e]; rfl) k

end Sys2Proof.Machine
end

