-- ==== Sys2Proof/Laws/PerInstr.lean ====
section
/-! SUPPORT. Facts about each operation as syntax, one lemma an operation. -/

namespace Sys2Proof.Laws

/-- The encoding of an operation over any words meets the operation's own row of the opcode table. -/
def RowMatches.Statement (i : Instr) : Prop := ∀ w : CycleWord, (opcodeRow i).selects (encode i w) = true

theorem RowMatches.of_bits (i : Instr)
    (h : ∀ (a : BitVec 3) (b : BitVec 4), (opcodeRow i).selects (encode i ⟨a, b⟩) = true) : RowMatches.Statement i :=
  fun w => h w.inp w.sel

theorem RowMatches.reset : RowMatches.Statement .reset := RowMatches.of_bits _ (by decide)
theorem RowMatches.sync : RowMatches.Statement .sync := RowMatches.of_bits _ (by decide)
theorem RowMatches.edge : RowMatches.Statement .edge := RowMatches.of_bits _ (by decide)
theorem RowMatches.poll : RowMatches.Statement .poll := RowMatches.of_bits _ (by decide)
theorem RowMatches.confirm : RowMatches.Statement .confirm := RowMatches.of_bits _ (by decide)
theorem RowMatches.pressCut : RowMatches.Statement .pressCut := RowMatches.of_bits _ (by decide)
theorem RowMatches.pressRestart : RowMatches.Statement .pressRestart := RowMatches.of_bits _ (by decide)
theorem RowMatches.renderP : RowMatches.Statement .renderP := RowMatches.of_bits _ (by decide)
theorem RowMatches.shiftRot : RowMatches.Statement .shiftRot := RowMatches.of_bits _ (by decide)
theorem RowMatches.shiftHold : RowMatches.Statement .shiftHold := RowMatches.of_bits _ (by decide)
theorem RowMatches.renderT : RowMatches.Statement .renderT := RowMatches.of_bits _ (by decide)
theorem RowMatches.wait : RowMatches.Statement .wait := RowMatches.of_bits _ (by decide)

end Sys2Proof.Laws
end

