-- ==== Sys2Proof/Laws/Phases.lean ====
section
/-! SUPPORT. The sequencer's part of a cycle, case by case: the state each branch of the main loop leaves, so that a proof
about every cycle is a case analysis over this one lemma and never unfolds a meaning. -/

namespace Sys2Proof.Machine

/-- What the sequencer operation of the current phase leaves, one constructor a branch of 42_shift_sequencer.md R140. -/
inductive MainCase (s : State) : State → Prop where
  | pollStart (hp : s.ph = .poll) (hf : s.pf = true) :
      MainCase s ((s.setPh .confirm).setCnt (settleCycles Config.values))
  | pollIdle (hp : s.ph = .poll) (hf : s.pf = false) : MainCase s (s.setPh .shift)
  | confirmCount (hp : s.ph = .confirm) (hc : s.cnt ≠ 0#32) : MainCase s (s.setCnt (s.cnt - 1#32))
  | confirmPress (hp : s.ph = .confirm) (hc : s.cnt = 0#32) (hy : s.sy2 = false) :
      MainCase s ((s.setPf false).setPh .press)
  | confirmNoise (hp : s.ph = .confirm) (hc : s.cnt = 0#32) (hy : s.sy2 = true) :
      MainCase s ((s.setPf false).setPh .shift)
  | cutEnd (hp : s.ph = .press) (hg : s.gs = .inGame) (he : s.survivors = 0x00#8 ∨ s.ar = 0) :
      MainCase s ((((s.setRow s.ar s.survivors).setGs .ended).setPh .renderP).setRi 0)
  | cutDescend (hp : s.ph = .press) (hg : s.gs = .inGame) (hs : s.survivors ≠ 0x00#8) (ha : s.ar ≠ 0) :
      MainCase s
        ((((((s.setRow s.ar s.survivors).setRow (rowAbove s.ar) (spawn (popcount s.survivors))).setAr
          (rowAbove s.ar)).setSpd (s.spd + speedIncrement Config.values)).setPh .renderP).setRi 0)
  | restart (hp : s.ph = .press) (hg : s.gs = .ended) : MainCase s ((s.initGame.setPh .renderP).setRi 0)
  | stallP (hp : s.ph = .renderP) (hr : s.input.rdy = false) : MainCase s s
  | stallT (hp : s.ph = .renderT) (hr : s.input.rdy = false) : MainCase s s
  | writeP (hp : s.ph = .renderP) (hr : s.input.rdy = true) (hi : s.ri ≠ 7) :
      MainCase s ((s.setTx (s.tx.write (s.ri.val + 1) (s.row s.ri))).setRi (s.ri + 1))
  | writeT (hp : s.ph = .renderT) (hr : s.input.rdy = true) (hi : s.ri ≠ 7) :
      MainCase s ((s.setTx (s.tx.write (s.ri.val + 1) (s.row s.ri))).setRi (s.ri + 1))
  | lastP (hp : s.ph = .renderP) (hr : s.input.rdy = true) (hi : s.ri = 7) :
      MainCase s (((s.setTx (s.tx.write (s.ri.val + 1) (s.row s.ri))).setPh .shift).setRi 0)
  | lastT (hp : s.ph = .renderT) (hr : s.input.rdy = true) (hi : s.ri = 7) :
      MainCase s
        ((((s.setTx (s.tx.write (s.ri.val + 1) (s.row s.ri))).setPh .wait).setRi 0).setCnt
          (intervalCycles Config.values s.spd))
  | rotate (hp : s.ph = .shift) (hg : s.gs = .inGame) :
      MainCase s (((s.setRow s.ar (rol8 (s.row s.ar))).setPh .renderT).setRi 0)
  | hold (hp : s.ph = .shift) (hg : s.gs = .ended) : MainCase s ((s.setPh .renderT).setRi 0)
  | waitCount (hp : s.ph = .wait) (hc : s.cnt ≠ 0#32) : MainCase s (s.setCnt (s.cnt - 1#32))
  | waitExit (hp : s.ph = .wait) (hc : s.cnt = 0#32) : MainCase s (s.setPh .poll)

/-- The sequencer operation of the current phase does one of these things. -/
theorem mainCase_of_exec (s m : State) (h : exec (sequencerOp s.ph s.gs) s = .next m) : MainCase s m := by
  cases hp : s.ph with
  | poll =>
    rw [hp] at h
    cases h
    cases hf : s.pf
    · simpa [pollWith, hf] using MainCase.pollIdle hp hf
    · simpa [pollWith, hf] using MainCase.pollStart hp hf
  | confirm =>
    rw [hp] at h
    cases h
    by_cases hc : s.cnt = 0#32
    · cases hy : s.sy2
      · simpa [hc, hy] using MainCase.confirmPress hp hc hy
      · simpa [hc, hy] using MainCase.confirmNoise hp hc hy
    · simpa [hc] using MainCase.confirmCount hp hc
  | press =>
    rw [hp] at h
    cases hg : s.gs with
    | inGame =>
      rw [hg] at h
      cases h
      obtain ⟨he, e⟩ | ⟨⟨hs, ha⟩, e⟩ := pressCutWith_cases Config.values s
      · rw [e]; exact .cutEnd hp hg he
      · rw [e]; exact .cutDescend hp hg hs ha
    | ended =>
      rw [hg] at h
      cases h
      exact .restart hp hg
  | renderP =>
    rw [hp] at h
    cases h
    obtain ⟨hr, e⟩ | ⟨hr, hi, e⟩ | ⟨hr, hi, e⟩ := s.renderStep_cases fun t => (t.setPh .shift).setRi 0
    · rw [e]; exact .stallP hp hr
    · rw [e]; exact .writeP hp hr hi
    · rw [e]; exact .lastP hp hr hi
  | shift =>
    rw [hp] at h
    cases hg : s.gs with
    | inGame => rw [hg] at h; cases h; exact .rotate hp hg
    | ended => rw [hg] at h; cases h; exact .hold hp hg
  | renderT =>
    rw [hp] at h
    cases h
    obtain ⟨hr, e⟩ | ⟨hr, hi, e⟩ | ⟨hr, hi, e⟩ :=
      s.renderStep_cases fun t => ((t.setPh .wait).setRi 0).setCnt (intervalCycles Config.values s.spd)
    · rw [renderTWith, e]; exact .stallT hp hr
    · rw [renderTWith, e]; exact .writeT hp hr hi
    · rw [renderTWith, e]; exact .lastT hp hr hi
  | wait =>
    rw [hp] at h
    cases h
    by_cases hc : s.cnt = 0#32
    · simpa [hc] using MainCase.waitExit hp hc
    · simpa [hc] using MainCase.waitCount hp hc

/-- The state after a cycle with `rst = 0` whose sequencer operation leaves `m`. -/
def State.afterCycle (s m : State) : State :=
  ((m.setSync s.input.btn s.sy1 s.sy2).setPf s.nextPf).setEnv s.stim.tail (s.cycle + 1)

/-- The state after a cycle with `rst = 1`. -/
def State.afterReset (s : State) : State := (State.reset.setTx s.tx).setEnv s.stim.tail (s.cycle + 1)

/-- Everything one cycle can do, branch by branch. -/
theorem step_mainCase (s t : State) (h : step s = .next t) :
    (s.input.rst = true ∧ t = s.afterReset) ∨
    (s.input.rst = false ∧ ∃ m, MainCase s m ∧ t = s.afterCycle m) := by
  obtain hr | ⟨hr, m, hm, e⟩ := step_cases s t h
  · exact .inl hr
  · exact .inr ⟨hr, m, mainCase_of_exec s m hm, e⟩

/-- A cycle with `rst = 0` goes on, to one of the states `step_mainCase` names. -/
theorem step_afterCycle (s : State) (h : s.input.rst = false) :
    ∃ m, MainCase s m ∧ step s = .next (s.afterCycle m) := by
  obtain ⟨m, hm⟩ := exec_next (sequencerOp s.ph s.gs) s
  obtain ⟨h1, h2⟩ := exec_env _ _ _ hm
  exact ⟨m, mainCase_of_exec s m hm, by rw [step_of_op s m h hm, h1, h2]; rfl⟩

variable (s m : State)

@[simp] theorem State.afterCycle_fb : (s.afterCycle m).fb = m.fb := rfl
@[simp] theorem State.afterCycle_ar : (s.afterCycle m).ar = m.ar := rfl
@[simp] theorem State.afterCycle_gs : (s.afterCycle m).gs = m.gs := rfl
@[simp] theorem State.afterCycle_spd : (s.afterCycle m).spd = m.spd := rfl
@[simp] theorem State.afterCycle_ph : (s.afterCycle m).ph = m.ph := rfl
@[simp] theorem State.afterCycle_cnt : (s.afterCycle m).cnt = m.cnt := rfl
@[simp] theorem State.afterCycle_ri : (s.afterCycle m).ri = m.ri := rfl
@[simp] theorem State.afterCycle_tx : (s.afterCycle m).tx = m.tx := rfl
@[simp] theorem State.afterCycle_sy1 : (s.afterCycle m).sy1 = s.input.btn := rfl
@[simp] theorem State.afterCycle_sy2 : (s.afterCycle m).sy2 = s.sy1 := rfl
@[simp] theorem State.afterCycle_prev : (s.afterCycle m).prev = s.sy2 := rfl
@[simp] theorem State.afterCycle_pf : (s.afterCycle m).pf = s.nextPf := rfl
@[simp] theorem State.afterCycle_row (r : Idx) : (s.afterCycle m).row r = m.row r := rfl
@[simp] theorem State.afterCycle_inputAt (k : Nat) : (s.afterCycle m).inputAt k = s.inputAt (k + 1) :=
  inputAt_of_used_up s _ rfl rfl k
@[simp] theorem State.afterCycle_input : (s.afterCycle m).input = s.inputAt 1 := State.afterCycle_inputAt s m 0
@[simp] theorem State.afterReset_tx : s.afterReset.tx = s.tx := rfl
@[simp] theorem State.afterReset_inputAt (k : Nat) : s.afterReset.inputAt k = s.inputAt (k + 1) :=
  inputAt_of_used_up s _ rfl rfl k

end Sys2Proof.Machine
end

