-- ==== Sys2Proof/Laws/Runs.lean ====
section
/-! SUPPORT. Runs: one cycle more, two runs joined, an invariant carried along, and the premises on the inputs moved up. -/

namespace Sys2Proof.Machine

@[simp] theorem runsTo_zero (s t : State) : runsTo s 0 t ↔ t = s := Iff.rfl

/-- One cycle and then a run. -/
theorem runsTo_succ (s t u : State) (n : Nat) (h : step s = .next t) (hu : runsTo t n u) : runsTo s (n + 1) u :=
  ⟨t, h, hu⟩

theorem runsTo_one (s t : State) (h : step s = .next t) : runsTo s 1 t := ⟨t, h, rfl⟩

/-- A run after a first cycle that is known. -/
theorem runsTo_of_succ (s t u : State) (n : Nat) (h : step s = .next t) (hr : runsTo s (n + 1) u) : runsTo t n u := by
  obtain ⟨v, hv, hr⟩ := hr
  rw [h, Host.Outcome.next.injEq] at hv
  exact hv ▸ hr

/-- Two runs, one after the other. -/
theorem runsTo_trans (s t u : State) (m n : Nat) (h1 : runsTo s m t) (h2 : runsTo t n u) : runsTo s (m + n) u := by
  induction m generalizing s with
  | zero => cases h1; simpa using h2
  | succ m ih =>
    obtain ⟨v, hv, hr⟩ := h1
    rw [show m + 1 + n = (m + n) + 1 by omega]
    exact ⟨v, hv, ih v hr⟩

/-- A run has one end. -/
theorem runsTo_unique (s t u : State) (n : Nat) (h1 : runsTo s n t) (h2 : runsTo s n u) : t = u := by
  induction n generalizing s with
  | zero => cases h1; cases h2; rfl
  | succ n ih =>
    obtain ⟨v, hv, hr⟩ := h1
    exact ih v hr (runsTo_of_succ s v u n hv h2)

/-- What every step keeps, every run keeps. -/
theorem invariant_of_runsTo (P : State → Prop) (hP : ∀ s t, P s → step s = .next t → P t) (s t : State) (n : Nat)
    (hs : P s) (h : runsTo s n t) : P t := by
  induction n generalizing s with
  | zero => cases h; exact hs
  | succ n ih =>
    obtain ⟨u, hu, hr⟩ := h
    exact ih u (hP s u hs hu) hr

/-- The input vectors of the end of a run. -/
theorem runsTo_inputAt (s t : State) (n k : Nat) (h : runsTo s n t) : t.inputAt k = s.inputAt (n + k) := by
  induction n generalizing s with
  | zero => cases h; simp
  | succ n ih =>
    obtain ⟨u, hu, hr⟩ := h
    rw [ih u hr, step_inputAt s u hu, show n + 1 + k = n + k + 1 by omega]

/-- The reset premise for what is left of a run. -/
theorem noReset_of_step (s t : State) (n : Nat) (h : step s = .next t) (hn : noReset s (n + 1)) : noReset t n := by
  intro k hk
  rw [step_inputAt s t h]
  exact hn (k + 1) (by omega)

/-- No reset in the first cycle. -/
theorem noReset_head (s : State) (n : Nat) (hn : noReset s (n + 1)) : s.input.rst = false := hn 0 (by omega)

/-- A run is a run of the host's machine. -/
theorem core_run_of_runsTo (s t : State) (n : Nat) (h : runsTo s n t) : Host.Core.run Sys2Proof.core n s = .next t := by
  induction n generalizing s with
  | zero => cases h; rfl
  | succ n ih =>
    obtain ⟨u, hu, hr⟩ := h
    have hu' : Sys2Proof.core.step s = .next u := hu
    simp only [Host.Core.run, hu']
    exact ih u hr

end Sys2Proof.Machine
end

