-- ==== Sys2Proof/Tests/Slice0.lean ====
section
/-! SUPPORT. Tests. Expected values are those of spec/95_test_vectors.md (named in the comments) and of the rules cited; the
numbers of the reference configuration are used where a vector needs them. The last part shows, for every statement with
hypotheses, a concrete state that meets them. -/

namespace Sys2Proof.Tests

open Sys2Proof.Machine

/-! ### Helpers -/

/-- The state an outcome goes on with. -/
def nextOf (o : Host.Outcome State Fault Refusal) : State :=
  match o with
  | .next s => s
  | .fault _ => State.reset
  | .refused _ => State.reset

/-- Does an outcome go on. -/
def goesOn (o : Host.Outcome State Fault Refusal) : Bool :=
  match o with
  | .next _ => true
  | .fault _ => false
  | .refused _ => false

/-- `rdy = 0`, button released. -/
def stallInput : Input := { rst := false, btn := true, rdy := false }

/-- `rst = 1`. -/
def resetInput : Input := { rst := true, btn := false, rdy := true }

/-- The reset state in another phase, with input vectors to come. -/
def start (p : Phase) (stim : List Input) : State := (State.reset.setPh p).setEnv stim 0

/-- A game in progress: Active Row, Speed, frame. -/
def game (p : Phase) (gs : GameState) (a : Idx) (spd : Speed) (fb : Vector Byte 8) : State :=
  { start p [idleInput] with ar := a, gs := gs, spd := spd, fb := fb }

/-- A frame of the vectors: locked rows `78` and `7E`, and row 5. -/
def above (b : Byte) : Vector Byte 8 := #v[0x00#8, 0x00#8, 0x00#8, 0x00#8, 0x00#8, b, 0x78#8, 0x7E#8]

/-! ### Ill-formed terms are refused -/

theorem test_reference_parameters : Config.Values.ref.wellFormed = true := by decide
theorem test_fMs_zero : { Config.Values.ref with fMs := 0 }.wellFormed = false := by decide
theorem test_settleMs_not_30 : { Config.Values.ref with settleMs := 29 }.wellFormed = false := by decide
theorem test_minInterval_zero : { Config.Values.ref with minInterval := 0 }.wellFormed = false := by decide
theorem test_min_above_base : { Config.Values.ref with minInterval := 101 }.wellFormed = false := by decide
theorem test_speedInc_zero : { Config.Values.ref with speedInc := 0 }.wellFormed = false := by decide
theorem test_speedInc_too_big : { Config.Values.ref with speedInc := 9363 }.wellFormed = false := by decide
theorem test_settle_overflow :
    { Config.Values.ref with fMs := 143165577, baseInterval := 1, minInterval := 1 }.wellFormed = false := by decide
theorem test_interval_overflow : { Config.Values.ref with baseInterval := 4294967296 }.wellFormed = false := by decide
theorem test_reserved_sel :
    selWellFormed 0b1110#4 = false ∧ selWellFormed 0b1111#4 = false ∧ selWellFormed 0b1101#4 = true := by decide
theorem test_reserved_words : CycleWord.wellFormed { inp := 0b011#3, sel := 0xE#4 } = false ∧
    CycleWord.wellFormed { inp := 0b111#3, sel := 0xE#4 } = true := by decide
theorem test_reserved_refused :
    decode { inp := 0b011#3, sel := 0b1110#4 } = .error (.reservedSelection 0b1110#4) ∧
    decode { inp := 0b001#3, sel := 0b1111#4 } = .error (.reservedSelection 0b1111#4) := by decide

/-! ### Decoding: words written bit by bit (R72, R73, R76; opcode_table.json) -/

theorem test_decode_reset : decode { inp := 0b110#3, sel := 0b0110#4 } = .ok [.reset] := by decide
theorem test_decode_sync_edge : decode { inp := 0b011#3, sel := 0b1101#4 } = .ok [.sync, .edge, .wait] := by decide
theorem test_decode_poll : decodeSel 0b0000#4 = .ok .poll ∧ decodeSel 0b0001#4 = .ok .poll := by decide
theorem test_decode_confirm : decodeSel 0b0010#4 = .ok .confirm ∧ decodeSel 0b0011#4 = .ok .confirm := by decide
theorem test_decode_press : decodeSel 0b0100#4 = .ok .pressCut ∧ decodeSel 0b0101#4 = .ok .pressRestart := by decide
theorem test_decode_renderP : decodeSel 0b0110#4 = .ok .renderP ∧ decodeSel 0b0111#4 = .ok .renderP := by decide
theorem test_decode_shift : decodeSel 0b1000#4 = .ok .shiftRot ∧ decodeSel 0b1001#4 = .ok .shiftHold := by decide
theorem test_decode_renderT : decodeSel 0b1010#4 = .ok .renderT ∧ decodeSel 0b1011#4 = .ok .renderT := by decide
theorem test_decode_wait : decodeSel 0b1100#4 = .ok .wait ∧ decodeSel 0b1101#4 = .ok .wait := by decide

theorem test_encode :
    encode .reset { inp := 0b001#3, sel := 0xE#4 } = { inp := 0b101#3, sel := 0xE#4 } ∧
    encode .sync { inp := 0b110#3, sel := 0b1010#4 } = { inp := 0b010#3, sel := 0b1010#4 } ∧
    encode .pressRestart { inp := 0b111#3, sel := 0b1110#4 } = { inp := 0b011#3, sel := 0b0101#4 } ∧
    encode .renderT { inp := 0b011#3, sel := 0b0001#4 } = { inp := 0b011#3, sel := 0b1011#4 } := by decide

/-- R74, R75: the codes. -/
theorem test_codes :
    [Phase.poll, .confirm, .press, .renderP, .shift, .renderT, .wait].map (fun p => p.code.toNat) = [0, 1, 2, 3, 4, 5, 6] ∧
    GameState.inGame.code = 0#1 ∧ GameState.ended.code = 1#1 ∧ selWord .shift .ended = 0b1001#4 := by decide

/-- R76: `0b011`, `0b001` and `0b1xx`. -/
theorem test_input_vectors : Input.ofVec 0b011#3 = idleInput ∧ Input.ofVec 0b001#3 = holdInput ∧
    (Input.ofVec 0b101#3).rst = true ∧ stallInput.vec = 0b010#3 := by decide

theorem test_table_words :
    decodeTableWord 3 4 = some .reset ∧ decodeTableWord 8 0xC = some .wait ∧ decodeTableWord 8 0xE = none ∧
    decodeTableWord 8 0x9 = some .shiftHold := by decide

/-- A placed word is the operation of the next cycle. -/
theorem test_placed_words :
    decodeMain (State.reset.withFetchWord 8 0x5).fetch = .ok .pressRestart ∧
    decodeMain (State.reset.withFetchWord 8 0xC).fetch = .ok .wait ∧
    decodeMain (State.reset.withFetchWord 3 0x4).fetch = .ok .reset := by decide

/-! ### Functions of a row -/

/-- Spot checks of section 2. -/
theorem test_narrow : [0x05#8, 0x50#8, 0xC3#8, 0xE7#8, 0x77#8, 0x6D#8, 0xDB#8, 0x00#8, 0xFF#8, 0x66#8].map narrow =
    [0x01#8, 0x10#8, 0x03#8, 0x07#8, 0x07#8, 0x0C#8, 0x03#8, 0x00#8, 0xFF#8, 0x06#8] := by decide

/-- R117; R12. -/
theorem test_spawn : [1, 2, 3, 6, 8].map spawn = [0x01#8, 0x03#8, 0x07#8, 0x3F#8, 0xFF#8] ∧ colmask 0 0 = 0x80#8 ∧
    colmask 7 7 = 0x01#8 ∧ colmask 0 7 = 0xFF#8 ∧ seed = 0x7E#8 := by decide

/-- The second configuration of section 3: Speed beyond the base interval. -/
theorem test_interval_clamp :
    [0#16, 10#16, 20#16, 30#16, 40#16, 50#16, 60#16, 70#16].map
      (intervalMs { Config.Values.ref with baseInterval := 50, minInterval := 1 }) = [50, 40, 30, 20, 10, 1, 1, 1] := by
  decide

/-- Section 4: `set(7, 0, 1)` and `set(7, 1, 0)` on `0x7E`. -/
theorem test_set : (State.reset.setCell 7 0 true).row 7 = 0xFE#8 ∧ (State.reset.setCell 7 1 false).row 7 = 0x3E#8 := by
  decide

/-! ### One step of each operation -/

/-- T20. -/
theorem test_reset : (nextOf (step { game .wait .ended 3 40#16 (Vector.replicate 8 0xFF#8) with
      stim := [resetInput], pf := true, sy2 := false })) = { State.reset with cycle := 1 } := by decide

/-- R91's example. -/
theorem test_sync : (nextOf (execSync (start .wait [holdInput]))).sy1 = false ∧
    (nextOf (execSync { start .wait [holdInput] with sy1 := false })).sy2 = false ∧
    (nextOf (execSync { start .wait [holdInput] with sy1 := false, sy2 := false })).prev = false := by decide

/-- T21: a button held through reset sets `PF` at the third edge. -/
theorem test_edge : let s := { start .renderP [{ holdInput with rdy := false }] with sy1 := false, sy2 := false };
    (nextOf (step s)).pf = true ∧ (nextOf (step s)).prev = false ∧ (nextOf (step s)).ri = 0 := by decide

/-- T11: the clear wins. -/
theorem test_edge_cleared : let s := { start .confirm [holdInput] with sy1 := false, sy2 := false, pf := true };
    s.outputs.pressEv = true ∧ (nextOf (step s)).pf = false ∧ (nextOf (step s)).ph = .press := by decide

/-- T6. -/
theorem test_poll_start : let t := pollWith Config.Values.ref { start .poll [holdInput] with pf := true };
    t.ph = .confirm ∧ t.cnt = 30#32 ∧ t.pf = true := by decide

/-- T7: an edge in the POLL cycle is left for the next one. -/
theorem test_poll_idle_edge : let t := nextOf (step { start .poll [holdInput] with sy1 := false, sy2 := false });
    t.ph = .shift ∧ t.pf = true ∧ t.prev = false := by decide

/-- T8. -/
theorem test_confirm_count : let t := nextOf (step { start .confirm [holdInput] with cnt := 30#32, pf := true });
    t.ph = .confirm ∧ t.cnt = 29#32 ∧ t.pf = true := by decide

/-- T12. -/
theorem test_confirm_noise : let t := nextOf (step { start .confirm [idleInput] with prev := false, pf := true });
    t.ph = .shift ∧ t.pf = false := by decide

/-- V10. -/
theorem test_pressCut_descend : let t := pressCutWith Config.Values.ref (game .press .inGame 5 20#16 (above 0x1E#8));
    t.fb.toList = [0x00#8, 0x00#8, 0x00#8, 0x00#8, 0x03#8, 0x18#8, 0x78#8, 0x7E#8] ∧ t.ar = 4 ∧ t.spd = 30#16 := by
  decide

/-- V9. -/
theorem test_pressCut_ends : let t := pressCutWith Config.Values.ref (game .press .inGame 5 20#16 (above 0xC3#8));
    t.fb.toList = [0x00#8, 0x00#8, 0x00#8, 0x00#8, 0x00#8, 0x00#8, 0x78#8, 0x7E#8] ∧ t.gs = .ended ∧ t.ar = 5 := by
  decide

/-- V18. -/
theorem test_pressRestart : let t := nextOf (step (game .press .ended 5 20#16 (above 0x00#8)));
    t.fb.toList = State.reset.fb.toList ∧ t.ar = 7 ∧ t.spd = 0#16 := by decide

/-- T17; the initial frame's row 7 is the pair `0x087E` (R77). -/
theorem test_renderP_last : let s := { start .renderP [idleInput] with ri := 7 };
    s.outputs.pair = 0x087E#16 ∧ (nextOf (step s)).ph = .shift ∧ (nextOf (step s)).tx = [(8, 0x7E#8)] := by decide

/-- T14's stall, in RENDER_P. -/
theorem test_renderP_stall : let s := { start .renderP [stallInput] with ri := 7 };
    s.outputs.wrValid = true ∧ (nextOf (step s)).ri = 7 ∧ (nextOf (step s)).tx = [] := by decide

/-- T3: `0xE0` becomes `0xC1`. -/
theorem test_shiftRot : let t := nextOf (step (game .shift .inGame 5 20#16 (above 0xE0#8)));
    t.fb.toList = [0x00#8, 0x00#8, 0x00#8, 0x00#8, 0x00#8, 0xC1#8, 0x78#8, 0x7E#8] ∧ t.ph = .renderT := by decide

/-- T4. -/
theorem test_shiftHold : let s := game .shift .ended 5 20#16 (above 0xE0#8);
    (nextOf (step s)).fb = s.fb ∧ (nextOf (step s)).ph = .renderT := by decide

/-- T13: `O = 0 1 07 38`. -/
theorem test_renderT_write : let s := { game .renderT .inGame 6 10#16 #v[0x00#8, 0x00#8, 0x00#8, 0x00#8, 0x00#8, 0x00#8, 0x38#8,
      0x7E#8] with ri := 6 };
    s.outputs.vec = 0b010000011100111000#18 ∧ (nextOf (step s)).ri = 7 ∧ s.events = [.write 0x07#8 0x38#8] := by decide

/-- T16: the clamped interval. -/
theorem test_renderT_last : let t := renderTWith Config.Values.ref { start .renderT [idleInput] with ri := 7, spd := 70#16 };
    t.ph = .wait ∧ t.cnt = 40#32 ∧ t.ri = 0 := by decide

/-- T18, T19, T22. -/
theorem test_wait : (nextOf (step { start .wait [idleInput] with cnt := 2#32 })).cnt = 1#32 ∧
    (nextOf (step (start .wait [idleInput]))).ph = .poll ∧ (start .wait [idleInput]).outputs.vec = 0#18 := by decide

/-! ### Traces and logs (R79, R80) -/

theorem test_bounce : (TraceItem.bounce [1, 2, 1]).expand = some [holdInput, idleInput, idleInput, holdInput] := by decide

/-- R200's line. -/
theorem test_state_line :
    State.reset.line = "PH=RENDER_P CNT=0 RI=0 SY=111 PF=0 AR=7 GS=0 SPD=0 FB=00 00 00 00 00 00 00 7E" := by decide +kernel

theorem test_mnemonics : (start .poll [idleInput]).mnemonic = "POLL.idle" ∧
    ({ start .wait [idleInput] with cnt := 5#32, sy2 := false }).mnemonic = "WAIT.count + EDGE" ∧
    (Event.write 0x07#8 0x1F#8).line = "W 07 1F" := by decide +kernel

/-! ### Witnesses: states that meet the hypotheses of the statements -/

/-- A CONFIRM cycle with a Press Event, in `End`; the button held for `n + 3` cycles, the transport not ready in the third. -/
def twice (n : Nat) : State :=
  { start .confirm (holdInput :: holdInput :: { holdInput with rdy := false } :: List.replicate n holdInput) with
    gs := .ended, sy2 := false, prev := false, pf := true }

theorem witness_DecodeAndEncodeAgree_encode : Instr.wait.wellFormed = true ∧
    (encode .wait { inp := 0b111#3, sel := 0xF#4 }).wellFormed = true := by decide

theorem witness_DecodeAndEncodeAgree_decode :
    decode { inp := 0b011#3, sel := 0xF#4 &&& 0x1#4 } = .ok [.sync, .edge, .poll] := by decide

theorem witness_SelectionTable :
    0x1#4 &&& 0xE#4 = 0x0#4 ∧ 0x3#4 &&& 0xE#4 = 0x2#4 ∧ 0x4#4 &&& 0xF#4 = 0x4#4 ∧ 0x5#4 &&& 0xF#4 = 0x5#4 ∧
    0x7#4 &&& 0xE#4 = 0x6#4 ∧ 0x8#4 &&& 0xF#4 = 0x8#4 ∧ 0x9#4 &&& 0xF#4 = 0x9#4 ∧ 0xB#4 &&& 0xE#4 = 0xA#4 ∧
    0xD#4 &&& 0xE#4 = 0xC#4 ∧ 0xF#4 &&& 0xE#4 = 0xE#4 := by decide

theorem witness_OperationsOfACycle : (CycleWord.mk 0b100#3 0xF#4).inp.getLsbD 2 = true ∧
    (CycleWord.mk 0b011#3 0xD#4).inp.getLsbD 2 = false ∧ selWellFormed 0xD#4 = true ∧
    (CycleWord.mk 0b011#3 0xE#4).inp.getLsbD 2 = false ∧ selWellFormed 0xE#4 = false := by decide

theorem witness_StepRunsSelectedOperation :
    (decodeMain (start .poll [resetInput]).fetch = .ok .reset ∧ ∃ m, exec .reset (start .poll [resetInput]) = .next m) ∧
    (decodeMain (start .poll [idleInput]).fetch = .ok .poll ∧ Instr.poll ≠ .reset ∧
      ∃ m, exec .poll (start .poll [idleInput]) = .next m) :=
  ⟨⟨by decide, _, rfl⟩, by decide, by decide, _, rfl⟩

theorem witness_PhaseGraph_poll : (start .poll [idleInput]).input.rst = false ∧ (start .poll [idleInput]).ph = .poll ∧
    (start .poll [idleInput]).pf = false ∧ ({ start .poll [idleInput] with pf := true } : State).pf = true := by decide

theorem witness_PhaseGraph_confirm :
    (let s := { start .confirm [idleInput] with cnt := 0xFFFFFFFF#32 };
      s.input.rst = false ∧ s.ph = .confirm ∧ s.cnt ≠ 0#32) ∧
    (let s := { start .confirm [idleInput] with sy2 := false };
      s.input.rst = false ∧ s.ph = .confirm ∧ s.cnt = 0#32 ∧ s.sy2 = false) ∧
    (let s := start .confirm [idleInput];
      s.input.rst = false ∧ s.ph = .confirm ∧ s.cnt = 0#32 ∧ s.sy2 = true) := by decide

theorem witness_PhaseGraph_press_shift : (start .press [idleInput]).input.rst = false ∧
    (start .press [idleInput]).ph = .press ∧ (start .shift [idleInput]).input.rst = false ∧
    (start .shift [idleInput]).ph = .shift := by decide

theorem witness_PhaseGraph_render :
    (let s := start .renderT [stallInput];
      s.input.rst = false ∧ renderPhase s ∧ s.input.rdy = false) ∧
    (let s := { start .renderT [idleInput] with ri := 6 };
      s.input.rst = false ∧ renderPhase s ∧ s.input.rdy = true ∧ s.ri ≠ 7) ∧
    (let s := { start .renderP [idleInput] with ri := 7 };
      s.input.rst = false ∧ s.ph = .renderP ∧ s.input.rdy = true ∧ s.ri = 7) ∧
    (let s := { start .renderT [idleInput] with ri := 7 };
      s.input.rst = false ∧ s.ph = .renderT ∧ s.input.rdy = true ∧ s.ri = 7) := by decide

theorem witness_PhaseGraph_wait :
    (let s := { start .wait [idleInput] with cnt := 1#32 };
      s.input.rst = false ∧ s.ph = .wait ∧ s.cnt ≠ 0#32) ∧
    (let s := start .wait [idleInput];
      s.input.rst = false ∧ s.ph = .wait ∧ s.cnt = 0#32) := by decide

theorem witness_ResetTakesEveryRegister : (start .shift [resetInput]).input.rst = true := by decide

theorem witness_SyncShiftsTheLine : (start .wait [holdInput]).input.rst = false ∧
    noReset (start .wait [holdInput, idleInput]) 2 := by decide

theorem witness_EdgeSetsThePendingFlag :
    (let s := { start .confirm [] with sy2 := false, cnt := 1#32 };
      s.prev = true ∧ s.sy2 = false ∧ ¬ (s.ph = .confirm ∧ s.cnt = 0#32)) ∧
    (let s := start .confirm [];
      ¬ (s.prev = true ∧ s.sy2 = false) ∧ s.ph = .confirm ∧ s.cnt = 0#32) := by decide

theorem witness_PendingFlagAfterACycle : (start .confirm [holdInput]).input.rst = false := by decide

theorem witness_PinFallReachesTheFlag : let s := start .wait [holdInput, holdInput, idleInput];
    s.sy1 = true ∧ (s.inputAt 0).btn = false ∧ noReset s 3 := by decide

theorem witness_PinFallReachesTheFlag_flag : ∃ u, runsTo (start .renderP [holdInput, holdInput, idleInput]) 2 u ∧
    u.clearNow = false :=
  ⟨_, ⟨_, step_of_op _ _ rfl rfl, _, step_of_op _ _ rfl rfl, rfl⟩, rfl⟩

theorem witness_HeldThroughResetIsOneEdge :
    (let s := { State.reset with stim := [holdInput, holdInput, holdInput], cycle := 0 };
      noReset s 3 ∧ (∀ k, k < 3 → (s.inputAt k).btn = false) ∧ noReset s 2 ∧ ∀ k, k < 2 → (s.inputAt k).btn = false) ∧
    (let s := { State.reset with stim := [idleInput, stallInput, idleInput], cycle := 0 };
      noReset s 3 ∧ ∀ k, k < 3 → (s.inputAt k).btn = true) := by decide

/-- The clauses that say which operation a phase performs. -/
theorem witness_phases : (start .poll []).ph = .poll ∧ (start .confirm []).ph = .confirm ∧ (start .press []).ph = .press ∧
    (start .press []).gs = .inGame ∧ (game .press .ended 3 0#16 (above 0x00#8)).ph = .press ∧
    (game .press .ended 3 0#16 (above 0x00#8)).gs = .ended ∧ (start .shift []).ph = .shift ∧
    (start .shift []).gs = .inGame ∧ (game .shift .ended 3 0#16 (above 0x00#8)).ph = .shift ∧
    (start .renderP []).ph = .renderP ∧ (start .renderT []).ph = .renderT ∧ (start .wait []).ph = .wait := by decide

theorem witness_PollStartsOrGoesOn : ({ start .poll [] with pf := true } : State).pf = true ∧
    (let s := { start .poll [holdInput] with sy2 := false };
      s.input.rst = false ∧ s.ph = .poll ∧ s.pf = false ∧ s.fall = true) := by decide

theorem witness_PollStartsOrGoesOn_only_from_wait :
    ∃ t, step (start .wait [idleInput]) = .next t ∧ (start .wait [idleInput]).input.rst = false ∧ t.ph = .poll :=
  ⟨_, step_of_op _ _ rfl rfl, rfl, rfl⟩

theorem witness_ConfirmCountsThenDecides : ({ start .confirm [] with cnt := 1#32 } : State).cnt ≠ 0#32 ∧
    (start .confirm []).cnt = 0#32 ∧ (start .confirm []).sy2 = true ∧
    ({ start .confirm [] with sy2 := false } : State).sy2 = false := by decide

theorem witness_ConfirmPhaseLength : let s := { start .confirm [holdInput, idleInput, stallInput] with cnt := 2#32 };
    s.ph = .confirm ∧ noReset s (s.cnt.toNat + 1) ∧ 2 ≤ s.cnt.toNat := by decide

theorem witness_PressEventsArePressCycles : (twice 1).outputs.pressEv = true ∧
    ∃ t, step (twice 1) = .next t ∧ t.ph = .press :=
  ⟨by decide, _, step_of_op _ _ rfl rfl, rfl⟩

theorem witness_LongestRunIsLongestThenRightmost : (0xC3#8 : Byte) ≠ 0x00#8 ∧ isRun 0xC3#8 ⟨6, 7⟩ = true := by decide

theorem witness_NarrowKeepsTheLongestRun : longestRun 0xC3#8 = some ⟨6, 7⟩ := by decide

theorem witness_SurvivorsAreSupported : State.reset.ar = 7 ∧
    (6 : Idx).val = (game .press .inGame 5 0#16 (Vector.replicate 8 0xFF#8)).ar.val + 1 := by decide

theorem witness_SpawnIsRightAligned : 1 ≤ 8 ∧ 8 ≤ 8 ∧ (0 : Idx).val = 8 - 8 ∧ (7 : Idx).val = 8 - 1 := by decide

theorem witness_PressCutOutcomes :
    (game .press .inGame 5 0#16 (Vector.replicate 8 0x00#8)).survivors = 0x00#8 ∧
    (game .press .inGame 0 0#16 (Vector.replicate 8 0xFF#8)).ar = 0 ∧
    (let s := game .press .inGame 1 0#16 (Vector.replicate 8 0x80#8);
      s.survivors ≠ 0x00#8 ∧ s.ar ≠ 0 ∧ (7 : Idx) ≠ s.ar) := by decide

theorem witness_CutDependsOnFourThings :
    let s := game .press .inGame 6 0#16 (Vector.replicate 8 0x7E#8);
    let s' := game .wait .inGame 6 0#16 #v[0x01#8, 0x00#8, 0x00#8, 0x00#8, 0x00#8, 0x00#8, 0x7E#8, 0x7E#8];
    s.row s.ar = s'.row s.ar ∧ s.support s.ar = s'.support s.ar ∧ s.ar = s'.ar ∧ s.spd = s'.spd ∧ s.gs = .inGame ∧
      s'.gs = .inGame ∧ goesOn (exec .pressCut s) = true ∧ goesOn (exec .pressCut s') = true := by decide

theorem witness_CutDependsOnFourThings_goes_on :
    ∃ t, exec .pressCut (game .press .inGame 6 0#16 (Vector.replicate 8 0x7E#8)) = .next t ∧ t.gs = .inGame :=
  ⟨_, rfl, rfl⟩

theorem witness_IntervalIsClamped : (0#16 : Speed).toNat ≤ (0xFFFF#16 : Speed).toNat := by decide

theorem witness_RotationProperties : rol8 0x7E#8 = rol8 0x7E#8 ∧ 1 ≤ 7 ∧ 7 ≤ 7 := by decide

theorem witness_WaitCountsThenPolls : ({ start .wait [] with cnt := 1#32 } : State).cnt ≠ 0#32 ∧
    (start .wait []).cnt = 0#32 := by decide

theorem witness_WaitPhaseLength : let s := { start .wait [holdInput, idleInput, stallInput] with cnt := 2#32 };
    s.ph = .wait ∧ noReset s (s.cnt.toNat + 1) ∧ 2 ≤ s.cnt.toNat := by decide

theorem inputAt_replicate (s : State) (i : Input) (n k : Nat) (h : s.stim = List.replicate n i) (hk : k < n) :
    s.inputAt k = i := by
  simp [State.inputAt, h, hk]

theorem witness_IdleTripIsOneTick :
    let n := intervalCount Config.values 0#16 + 11;
    let s := start .poll (List.replicate n idleInput);
    s.ph = .poll ∧ s.pf = false ∧ s.spd = 0#16 ∧ noReset s n ∧ alwaysReady s n ∧
      ∃ u, 0 < 1 ∧ 1 < n ∧ runsTo s 1 u := by
  refine ⟨rfl, rfl, rfl, ?_, ?_, ?_⟩
  · intro k hk; rw [inputAt_replicate _ idleInput _ k rfl hk]; rfl
  · intro k hk; rw [inputAt_replicate _ idleInput _ k rfl hk]; rfl
  · exact ⟨_, by decide, by omega, runsTo_one _ _ (step_of_op _ _ rfl rfl)⟩

theorem witness_FrameBufferPrimitives : (6 : Idx) ≠ 7 ∨ (0 : Idx) ≠ 0 := by decide

theorem witness_RenderPStep : (start .renderP [stallInput]).input.rdy = false ∧
    (start .renderP [idleInput]).input.rdy = true ∧ (start .renderP [idleInput]).ri ≠ 7 ∧
    ({ start .renderP [idleInput] with ri := 7 } : State).ri = 7 := by decide

theorem witness_RenderTStep : (start .renderT [stallInput]).input.rdy = false ∧
    (start .renderT [idleInput]).input.rdy = true ∧ (start .renderT [idleInput]).ri ≠ 7 ∧
    ({ start .renderT [idleInput] with ri := 7 } : State).ri = 7 := by decide

theorem witness_RenderPhasesLookAlike : goesOn (exec .renderP (start .renderP [idleInput])) = true ∧
    goesOn (exec .renderT (start .renderP [idleInput])) = true := by decide

theorem witness_OutputsAreGated :
    ((start .renderT [idleInput]).input.rst = false ∧ renderPhase (start .renderT [idleInput]) ∧
      (start .renderT [idleInput]).outputs.wrValid = true) ∧
    (start .renderT [resetInput]).input.rst = true ∧ ¬ renderPhase (start .wait [idleInput]) := by decide

theorem witness_RenderPassWritesInOrder :
    let s := start .renderT [idleInput, stallInput, idleInput, idleInput, idleInput, idleInput, idleInput, idleInput];
    renderPhase s ∧ s.ri = 0 ∧ noReset s 8 ∧ readyCount s 8 < 8 := by decide

theorem witness_RenderPassShowsTheFrame : let s := start .renderT (List.replicate 8 idleInput);
    renderPhase s ∧ s.ri = 0 ∧ noReset s 8 ∧ alwaysReady s 8 ∧ s.ph = .renderT ∧
    (start .renderP (List.replicate 8 idleInput)).ph = .renderP := by decide

theorem witness_StalledRenderWaits : let s := start .renderP [stallInput, stallInput, idleInput];
    renderPhase s ∧ noReset s 3 ∧ ∀ k, k < 2 → (s.inputAt k).rdy = false := by decide

theorem witness_MainLoopIgnoresTheRawLine :
    let s := start .wait [holdInput];
    let s' := { start .wait [idleInput] with sy1 := false, prev := false };
    sameGame s s' ∧ sameSequencer s s' ∧ s.pf = s'.pf ∧ s.sy2 = s'.sy2 ∧ s.input.rst = s'.input.rst ∧
      s.input.rdy = s'.input.rdy ∧ goesOn (step s) = true ∧ goesOn (step s') = true := by decide

theorem witness_OnlyPressAndShiftWriteTheGame :
    (∃ t, step (start .wait [idleInput]) = .next t ∧ (start .wait [idleInput]).input.rst = false ∧
      (start .wait [idleInput]).ph ≠ .press ∧
      ¬ ((start .wait [idleInput]).ph = .shift ∧ (start .wait [idleInput]).gs = .inGame)) ∧
    ∃ t, step (start .shift [idleInput]) = .next t ∧ (start .shift [idleInput]).input.rst = false ∧
      (start .shift [idleInput]).ph = .shift ∧ (6 : Idx) ≠ (start .shift [idleInput]).ar :=
  ⟨⟨_, step_of_op _ _ rfl rfl, rfl, by decide, by decide⟩, _, step_of_op _ _ rfl rfl, rfl, rfl, by decide⟩

theorem witness_GameTransitions : (start .press [idleInput]).input.rst = false ∧ (start .press [idleInput]).ph = .press ∧
    (start .press [idleInput]).gs = .inGame ∧ ({ start .press [idleInput] with gs := .ended } : State).gs = .ended ∧
    (start .wait [idleInput]).ph ≠ .press := by decide

theorem witness_OnlyAcceptedWritesReachTheTransport :
    ∃ t, step { start .renderP [idleInput] with ri := 7 } = .next t ∧
      t.tx.read 8 ≠ ({ start .renderP [idleInput] with ri := 7 } : State).tx.read 8 :=
  ⟨_, step_of_op _ _ rfl rfl, by decide⟩

/-- A bar rotated once, in the next SHIFT cycle. -/
def ticking : State := { game .shift .inGame 7 0#16 #v[0x00#8, 0x00#8, 0x00#8, 0x00#8, 0x00#8, 0x00#8, 0x00#8, 0xF9#8] with
  tx := [(8, 0xFC#8)] }

theorem ticking_frame : rowsAboveClear ticking ∧ activeRowLit ticking ∧ towerStands ticking ∧ barWidth ticking := by decide

theorem ticking_speed : speedLaw ticking := by simp [speedLaw, ticking, game]

theorem ticking_counters : countersLaw ticking := by
  simp [countersLaw, ticking, game, start, State.setPh, State.setEnv, State.reset]

theorem ticking_transport : transportLaw ticking := by
  refine ⟨by decide, fun a ha => ?_⟩
  by_cases h : 8 = a
  · omega
  · simp [ticking, Memory.read, h] at ha

/-- One state that meets every invariant and has a next state: RowsAboveStayClear, ActiveRowStaysLit, TowerKeepsStanding,
BarKeepsItsWidth, SpeedFollowsTheRow, CountersStayInTheirPhases, TransportKeepsItsForm, ReachableLawIsKept. -/
theorem witness_invariants : reachableLaw ticking ∧ ∃ t, step ticking = .next t ∧ runsTo ticking 1 t :=
  ⟨⟨ticking_frame.1, ticking_frame.2.1, ticking_frame.2.2.1, ticking_frame.2.2.2, ticking_speed, ticking_counters,
      ticking_transport⟩, _, step_of_op _ _ rfl rfl, _, step_of_op _ _ rfl rfl, rfl⟩

/-- A state under reset whose transport registers have their form. -/
theorem witness_ReachableLawIsKept_reset : (start .wait [resetInput]).input.rst = true ∧
    transportLaw (start .wait [resetInput]) ∧ ∃ t, step (start .wait [resetInput]) = .next t :=
  ⟨by decide, ⟨by decide, fun a ha => absurd rfl ha⟩, _, step_of_reset _ (by decide)⟩

/-! ### Two Press Events in one run

The button is held throughout; the line was high for one cycle, so that a second edge is seen;
the second press takes as long as R101 says and one stall more. -/

/-- The button is held, its edge is pending, and it stays held for `n` cycles. -/
def Held (n : Nat) (s : State) : Prop :=
  s.sy1 = false ∧ s.sy2 = false ∧ s.pf = true ∧ s.spd = 0#16 ∧ ∀ k, k < n → s.inputAt k = holdInput

theorem held_step (n : Nat) (s : State) (h : Held (n + 1) s) (hp : s.ph ≠ .press) (hc : s.clearNow = false) :
    ∃ m, MainCase s m ∧ step s = .next (s.afterCycle m) ∧ Held n (s.afterCycle m) := by
  obtain ⟨h1, h2, h3, h4, h5⟩ := h
  have hi : s.input = holdInput := h5 0 (by omega)
  obtain ⟨m, hm, hs⟩ := step_afterCycle s (by rw [hi]; rfl)
  refine ⟨m, hm, hs, by simp [hi, holdInput], by simpa using h1, by simp [State.nextPf, hc, h3], ?_, fun k hk => ?_⟩
  · cases hm <;> simp_all
  · simpa using h5 (k + 1) (by omega)

theorem held_pass (p q : Phase) (hpq : (p = .renderP ∧ q = .shift) ∨ (p = .renderT ∧ q = .wait)) (j n : Nat) (s : State)
    (h : Held (n + (j + 1)) s) (hp : s.ph = p) (hr : s.ri.val + j = 7) :
    ∃ t, runsTo s (j + 1) t ∧ Held n t ∧ t.ph = q ∧ t.ri = 0 ∧ (q = .wait → t.cnt = intervalCycles Config.values 0#16) := by
  have hi : s.input = holdInput := h.2.2.2.2 0 (by omega)
  have hspd := h.2.2.2.1
  obtain ⟨m, hm, hs, ht⟩ := held_step (n + j) s h (by rw [hp]; rcases hpq with ⟨rfl, -⟩ | ⟨rfl, -⟩ <;> decide)
    (by simp only [State.clearNow, hp]; rcases hpq with ⟨rfl, -⟩ | ⟨rfl, -⟩ <;> rfl)
  induction j generalizing s m with
  | zero =>
    refine ⟨_, runsTo_one _ _ hs, ht, ?_⟩
    have h7 : s.ri = 7 := Fin.ext (by simpa using hr)
    rcases hpq with ⟨rfl, rfl⟩ | ⟨rfl, rfl⟩ <;> cases hm <;> simp_all [holdInput]
  | succ j ih =>
    have h7 : s.ri ≠ 7 := fun e => by simp [e] at hr
    have hm' : m = (s.setTx (s.tx.write (s.ri.val + 1) (s.row s.ri))).setRi (s.ri + 1) := by
      rcases hpq with ⟨rfl, rfl⟩ | ⟨rfl, rfl⟩ <;> cases hm <;> simp_all [holdInput]
    subst hm'
    have hp' : (s.afterCycle ((s.setTx (s.tx.write (s.ri.val + 1) (s.row s.ri))).setRi (s.ri + 1))).ph = p := by
      simpa using hp
    have hr' : (s.afterCycle ((s.setTx (s.tx.write (s.ri.val + 1) (s.row s.ri))).setRi (s.ri + 1))).ri.val + j = 7 := by
      have : (s.ri + 1).val = s.ri.val + 1 := by
        have := s.ri.isLt
        rw [Fin.val_add]; simp; omega
      simp [this]; omega
    obtain ⟨m', hm', hs', ht'⟩ := held_step (n + j) _ ht (by rw [hp']; rcases hpq with ⟨rfl, -⟩ | ⟨rfl, -⟩ <;> decide)
      (by simp only [State.clearNow, hp']; rcases hpq with ⟨rfl, -⟩ | ⟨rfl, -⟩ <;> rfl)
    obtain ⟨t, hrun, hrest⟩ := ih _ ht hp' hr' (ht.2.2.2.2 0 (by omega)) ht.2.2.2.1 m' hm' hs' ht'
    exact ⟨t, runsTo_succ _ _ _ _ hs hrun, hrest⟩

theorem held_count (p : Phase) (hp : p = .wait ∨ p = .confirm) (j n : Nat) (s : State) (h : Held (n + j) s) (hs : s.ph = p)
    (hc : s.cnt.toNat = j) : ∃ t, runsTo s j t ∧ Held n t ∧ t.ph = p ∧ t.cnt = 0#32 := by
  induction j generalizing s with
  | zero => exact ⟨s, rfl, h, hs, by simpa [← BitVec.toNat_inj] using hc⟩
  | succ j ih =>
    have hne : s.cnt ≠ 0#32 := fun e => by simp [e] at hc
    obtain ⟨m, hm, hst, ht⟩ := held_step (n + j) s h (by rw [hs]; rcases hp with rfl | rfl <;> decide)
      (by simp [State.clearNow, hne])
    have hm' : m = s.setCnt (s.cnt - 1#32) := by rcases hp with rfl | rfl <;> cases hm <;> simp_all
    subst hm'
    obtain ⟨t, hr, hrest⟩ := ih _ ht (by simpa using hs) (by simp [BitVec.toNat_sub]; omega)
    exact ⟨t, runsTo_succ _ _ _ _ hst hr, hrest⟩

/-- For PressEventsNeedANewFall and PressEventsAreFarApart. -/
theorem witness_PressEvents : let n := Config.values.settleCount + intervalCount Config.values 0#16 + 22
    ∃ p t, (twice n).pressEv = true ∧ noReset (twice n) n ∧ 0 < n ∧ runsTo (twice n) 2 p ∧ runsTo (twice n) n t ∧
      t.pressEv = true := by
  intro n
  have hin : ∀ k, k < n → (twice n).inputAt (k + 3) = holdInput := fun k hk => by
    have e : (twice n).stim[k + 3]? = some holdInput := by
      show (List.replicate n holdInput)[k]? = some holdInput
      simp [hk]
    simp [State.inputAt, e]
  obtain ⟨s1, p, u, e1, e2, e3, hu1, hu2, hu3, hu4, hu5, hu6⟩ : ∃ s1 p u, step (twice n) = .next s1 ∧ step s1 = .next p ∧
      step p = .next u ∧ u.sy1 = false ∧ u.sy2 = false ∧ u.pf = true ∧ u.spd = 0#16 ∧ u.ph = .renderP ∧ u.ri = 0 :=
    ⟨_, _, _, step_of_op _ _ rfl rfl, step_of_op _ _ rfl rfl, step_of_op _ _ rfl rfl, rfl, rfl, rfl, rfl, rfl, rfl⟩
  have r3 : runsTo (twice n) 3 u := ⟨s1, e1, p, e2, runsTo_one _ _ e3⟩
  have hu : Held n u := ⟨hu1, hu2, hu3, hu4, fun k hk => by
    rw [runsTo_inputAt _ _ _ k r3, Nat.add_comm 3 k]; exact hin k hk⟩
  obtain ⟨v, hv, hvh, hvp, -, -⟩ := held_pass .renderP .shift (.inl ⟨rfl, rfl⟩) 7 (n - 8) u
    (by rwa [show n - 8 + (7 + 1) = n by omega]) hu5 (by simp [hu6])
  obtain ⟨m, hm, hs, hmh⟩ := held_step (n - 9) v (by rwa [show n - 9 + 1 = n - 8 by omega]) (by rw [hvp]; decide)
    (by simp [State.clearNow, hvp])
  have hw : (v.afterCycle m).ph = .renderT ∧ (v.afterCycle m).ri = 0 := by cases hm <;> simp_all
  obtain ⟨x, hx, hxh, hxp, -, hxc⟩ := held_pass .renderT .wait (.inr ⟨rfl, rfl⟩) 7 (n - 17) _
    (by rwa [show n - 17 + (7 + 1) = n - 9 by omega]) hw.1 (by rw [hw.2]; rfl)
  have hxn : x.cnt.toNat = intervalCount Config.values 0#16 := by rw [hxc rfl, intervalCycles_toNat]
  obtain ⟨y, hy, hyh, hyp, hyc⟩ := held_count .wait (.inl rfl) _ (Config.values.settleCount + 5) x
    (by rwa [show Config.values.settleCount + 5 + intervalCount Config.values 0#16 = n - 17 by omega]) hxp hxn
  obtain ⟨m2, hm2, hs2, hmh2⟩ := held_step (Config.values.settleCount + 4) y hyh (by rw [hyp]; decide)
    (by simp [State.clearNow, hyp])
  have hz : (y.afterCycle m2).ph = .poll := by cases hm2 <;> simp_all
  obtain ⟨m3, hm3, hs3, hmh3⟩ := held_step (Config.values.settleCount + 3) _ hmh2 (by rw [hz]; decide)
    (by simp only [State.clearNow, hz]; rfl)
  have hc : ((y.afterCycle m2).afterCycle m3).ph = .confirm ∧
      ((y.afterCycle m2).afterCycle m3).cnt.toNat = Config.values.settleCount := by
    have hpf := hmh2.2.2.1
    cases hm3 <;> simp_all [settleCycles_toNat]
  obtain ⟨t, ht, hth, htp, htc⟩ := held_count .confirm (.inr rfl) Config.values.settleCount 3 _
    (by rwa [Nat.add_comm 3]) hc.1 hc.2
  refine ⟨p, t, rfl, fun k hk => ?_, by omega, ⟨s1, e1, p, e2, rfl⟩, ?_, ?_⟩
  · match k with
    | 0 | 1 | 2 => rfl
    | k + 3 => rw [hin k (by omega)]; rfl
  · have := runsTo_trans _ _ _ _ _ r3 (runsTo_trans _ _ _ _ _ hv (runsTo_succ _ _ _ _ hs (runsTo_trans _ _ _ _ _ hx
      (runsTo_trans _ _ _ _ _ hy (runsTo_succ _ _ _ _ hs2 (runsTo_succ _ _ _ _ hs3 ht))))))
    rwa [show 3 + (7 + 1 + (7 + 1 + (intervalCount Config.values 0#16 + (Config.values.settleCount + 1 + 1)) + 1)) = n by
      omega] at this
  · have hi : t.input = holdInput := hth.2.2.2.2 0 (by omega)
    simp [State.pressEv, State.clearNow, htp, htc, hi, hth.2.1, holdInput]

end Sys2Proof.Tests
end

/-! ### Selection words and the rows of the opcode table (30_encoding.md R71, R72, R78)

A selection word is the word of a phase and a Game State, or it is reserved. On a word of the first kind a row of format S
matches exactly when its operation is the one `sequencerOp` names, and on a reserved word no such row matches: the ten rows
are disjoint and cover every word because no operation is listed twice. -/

namespace Sys2Proof

/-! #### Forming and taking apart a selection word -/

/-- R74: a code that names a phase is that phase's code. -/
theorem Phase.code_of_ofCode {c : BitVec 3} {ph : Phase} (h : Phase.ofCode c = some ph) : ph.code = c := by
  revert c
  cases ph <;> decide

/-- R74, R78: the one code that names no phase. -/
theorem Phase.ofCode_eq_none_iff (c : BitVec 3) : Phase.ofCode c = none ↔ c = 7#3 := by
  revert c
  decide

@[simp] theorem GameState.code_ofCode (c : BitVec 1) : (GameState.ofCode c).code = c := by
  revert c
  decide

/-- R71: the phase field and the Game State field make up the whole word. -/
theorem phaseField_append_gameField (sel : BitVec 4) : sel.extractLsb' 1 3 ++ sel.extractLsb' 0 1 = sel := by
  revert sel
  decide

/-- R72, R78: the reserved row asks for the phase code that names no phase. -/
theorem reserved_iff_phaseField (sel : BitVec 4) : sel &&& 0xE#4 = 0xE#4 ↔ sel.extractLsb' 1 3 = 7#3 := by
  revert sel
  decide

theorem selWord_not_reserved (ph : Phase) (gs : GameState) : selWord ph gs &&& 0xE#4 ≠ 0xE#4 := by
  cases ph <;> cases gs <;> decide

/-- R71, R78: every selection word is formed from a phase and a Game State, or is reserved. -/
theorem selWord_or_reserved (sel : BitVec 4) : (∃ ph gs, sel = selWord ph gs) ∨ sel &&& 0xE#4 = 0xE#4 := by
  cases h : Phase.ofCode (sel.extractLsb' 1 3) with
  | some ph =>
    refine .inl ⟨ph, GameState.ofCode (sel.extractLsb' 0 1), ?_⟩
    rw [selWord, Phase.code_of_ofCode h, GameState.code_ofCode, phaseField_append_gameField]
  | none => exact .inr ((reserved_iff_phaseField sel).2 ((Phase.ofCode_eq_none_iff _).1 h))

/-- R78: the decoder refuses the reserved words. -/
theorem decodeSel_of_reserved {sel : BitVec 4} (h : sel &&& 0xE#4 = 0xE#4) :
    decodeSel sel = .error (.reservedSelection sel) := by
  have hnone : Phase.ofCode (sel.extractLsb' 1 3) = none :=
    (Phase.ofCode_eq_none_iff _).2 ((reserved_iff_phaseField sel).1 h)
  rw [decodeSel, hnone]

/-! #### The rows of format S -/

/-- The operations with a row of format S, in the order of R72's table. -/
def sequencerOps : List Instr :=
  [.poll, .confirm, .pressCut, .pressRestart, .renderP, .shiftRot, .shiftHold, .renderT, .wait]

theorem mem_sequencerOps_iff (i : Instr) : i ∈ sequencerOps ↔ (opcodeRow i).format = .S := by
  cases i <;> decide

theorem sequencerOps_nodup : sequencerOps.Nodup := by decide

theorem sequencerOp_mem_sequencerOps (ph : Phase) (gs : GameState) : sequencerOp ph gs ∈ sequencerOps := by
  cases ph <;> cases gs <;> decide

/-- R72: the row of format S that a phase and a Game State meet is their own operation's. -/
theorem selWord_matches_row_iff (ph : Phase) (gs : GameState) {i : Instr} (hi : i ∈ sequencerOps) :
    selWord ph gs &&& (opcodeRow i).mask = (opcodeRow i).bits ↔ i = sequencerOp ph gs := by
  revert i
  cases ph <;> cases gs <;> decide

/-- R72, R78: a reserved word meets no operation's row. -/
theorem reserved_matches_no_row {sel : BitVec 4} (h : sel &&& 0xE#4 = 0xE#4) {i : Instr} (hi : i ∈ sequencerOps) :
    sel &&& (opcodeRow i).mask ≠ (opcodeRow i).bits := by
  revert sel i
  decide

/-- R72: a word that meets an operation's row decodes to that operation. -/
theorem decodeSel_of_matches_row {i : Instr} {sel : BitVec 4} (hi : (opcodeRow i).format = .S)
    (h : sel &&& (opcodeRow i).mask = (opcodeRow i).bits) : decodeSel sel = .ok i := by
  have hmem : i ∈ sequencerOps := (mem_sequencerOps_iff i).2 hi
  obtain ⟨ph, gs, rfl⟩ | hres := selWord_or_reserved sel
  · rw [Machine.decodeSel_selWord, (selWord_matches_row_iff ph gs hmem).1 h]
  · exact absurd h (reserved_matches_no_row hres hmem)

/-! #### The ten rows together -/

/-- Match and mask of R72's ten rows: the operations' rows, then the reserved one. -/
def selectionRows : List (BitVec 4 × BitVec 4) :=
  sequencerOps.map (fun i => ((opcodeRow i).bits, (opcodeRow i).mask)) ++ [(0xE#4, 0xE#4)]

/-- How many rows a word meets: its operations' rows, and the reserved one. -/
theorem countP_selectionRows (sel : BitVec 4) :
    (selectionRows.countP fun row => sel &&& row.2 == row.1) =
      (sequencerOps.countP fun i => sel &&& (opcodeRow i).mask == (opcodeRow i).bits) +
        if sel &&& 0xE#4 = 0xE#4 then 1 else 0 := by
  simp [selectionRows, List.countP_map, Function.comp_def, List.countP_singleton]

/-- R72: "The rows are disjoint and together cover all sixteen values of `SEL`." -/
theorem selectionRows_exactly_one (sel : BitVec 4) :
    (selectionRows.countP fun row => sel &&& row.2 == row.1) = 1 := by
  rw [countP_selectionRows]
  obtain ⟨ph, gs, rfl⟩ | hres := selWord_or_reserved sel
  · have hown : (sequencerOps.countP fun i => selWord ph gs &&& (opcodeRow i).mask == (opcodeRow i).bits) =
        sequencerOps.count (sequencerOp ph gs) :=
      List.countP_congr fun i hi => by simpa using selWord_matches_row_iff ph gs hi
    rw [hown, List.count_eq_one_of_mem sequencerOps_nodup (sequencerOp_mem_sequencerOps ph gs),
      if_neg (selWord_not_reserved ph gs)]
  · have hnone : (sequencerOps.countP fun i => sel &&& (opcodeRow i).mask == (opcodeRow i).bits) = 0 :=
      List.countP_eq_zero.2 fun i hi => by simpa using reserved_matches_no_row hres hi
    rw [hnone, if_pos hres]

/-- Settles O2: the nine rows of the operations by `decodeSel_of_matches_row`, the reserved row by `decodeSel_of_reserved`,
and the disjoint cover by `selectionRows_exactly_one`. -/
theorem selectionTable : Obligations.SelectionTable :=
  ⟨fun _ =>
    ⟨decodeSel_of_matches_row (i := .poll) rfl,
      decodeSel_of_matches_row (i := .confirm) rfl,
      decodeSel_of_matches_row (i := .pressCut) rfl,
      decodeSel_of_matches_row (i := .pressRestart) rfl,
      decodeSel_of_matches_row (i := .renderP) rfl,
      decodeSel_of_matches_row (i := .shiftRot) rfl,
      decodeSel_of_matches_row (i := .shiftHold) rfl,
      decodeSel_of_matches_row (i := .renderT) rfl,
      decodeSel_of_matches_row (i := .wait) rfl,
      decodeSel_of_reserved⟩,
    selectionRows_exactly_one⟩

end Sys2Proof

/-! ### The debounce synchronizer (40_debounce.md R91 to R100)

What the cycle performs beside the sequencer's operation, the one-bit conditions over registers, the operations SYNC, EDGE and
POLL as equations, and the two phases the statements ask the way into: POLL, which is reached from WAIT, and PRESS, which is
reached by a Press Event. -/

namespace Sys2Proof.Machine

/-! #### The operations of a cycle (R70, R73) -/

theorem decode_of_decodeMain {w : CycleWord} {i : Instr} (h : decodeMain w = .ok i) (hi : i ≠ .reset) :
    decode w = .ok (alwaysOps ++ [i]) := by
  cases i with
  | reset => exact absurd rfl hi
  | _ => simp only [decode, h]

/-- R70, R73: without a reset a cycle performs SYNC, EDGE and its phase's operation. -/
theorem decode_fetch_of_no_reset {s : State} (h : s.input.rst = false) :
    decode s.fetch = .ok [.sync, .edge, sequencerOp s.ph s.gs] :=
  decode_of_decodeMain (by simp [decodeMain_fetch, h]) (sequencerOp_ne_reset _ _)

theorem decodeSel_sel (s : State) : decodeSel s.sel = .ok (sequencerOp s.ph s.gs) := decodeSel_selWord s.ph s.gs

/-! #### The conditions, over registers (R93, R97, R98, R100) -/

theorem State.fall_iff (s : State) : s.fall = true ↔ s.prev = true ∧ s.sy2 = false := by simp [State.fall]

theorem State.clearNow_iff (s : State) : s.clearNow = true ↔ s.ph = .confirm ∧ s.cnt = 0#32 := by
  simp [State.clearNow]

theorem State.clearNow_of_ph_ne {s : State} (h : s.ph ≠ .confirm) : s.clearNow = false := by
  simp [State.clearNow, h]

/-- R98: the formula of the next pending flag, over registers. -/
theorem State.nextPf_eq (s : State) :
    s.nextPf = if s.ph = .confirm ∧ s.cnt = 0#32 then false
      else if s.prev = true ∧ s.sy2 = false then true else s.pf := by
  simp only [State.nextPf, State.clearNow_iff, State.fall_iff]

@[simp] theorem State.outputs_pressEv (s : State) : s.outputs.pressEv = s.pressEv := rfl

/-- R100: a Press Event is the clearing cycle of a line still low, outside reset. -/
theorem State.pressEv_iff (s : State) :
    s.pressEv = true ↔ s.input.rst = false ∧ s.ph = .confirm ∧ s.cnt = 0#32 ∧ s.sy2 = false := by
  simp [State.pressEv, State.clearNow, and_assoc]

theorem State.pressEv_of_ph_ne {s : State} (h : s.ph ≠ .confirm) : s.pressEv = false := by
  simp [State.pressEv, State.clearNow_of_ph_ne h]

/-! #### SYNC, EDGE and POLL (R91, R93, R95) -/

theorem exec_sync (s : State) : exec .sync s = .next (s.setSync s.input.btn s.sy1 s.sy2) := rfl

theorem exec_edge_of_fall {s : State} (hf : s.fall = true) (hc : s.clearNow = false) :
    exec .edge s = .next (s.setPf true) := by
  simp [exec, execEdge, hf, hc]

theorem exec_edge_of_no_fall {s : State} (hf : s.fall = false) : exec .edge s = .next s := by
  simp [exec, execEdge, hf]

theorem exec_edge_of_clear {s : State} (hc : s.clearNow = true) : exec .edge s = .next s := by
  simp [exec, execEdge, hc]

theorem exec_poll_of_pending {s : State} (h : s.pf = true) :
    exec .poll s = .next ((s.setPh .confirm).setCnt (settleCycles Config.values)) := by
  simp [exec, execPoll, pollWith, h]

theorem exec_poll_of_idle {s : State} (h : s.pf = false) : exec .poll s = .next (s.setPh .shift) := by
  simp [exec, execPoll, pollWith, h]

/-- R8, R9: `SETTLE_MS = 30`. -/
theorem settleCount_eq : Config.values.settleCount = 30 * Config.values.fMs := by
  obtain ⟨-, hsettle, -⟩ := values_spec
  rw [Config.Values.settleCount, hsettle]

/-! #### Two cycles of the synchronizer (R91) -/

/-- R91: one cycle shifts the line and leaves `PF` as R98 says, whatever the sequencer does. -/
theorem step_debouncer {s : State} (h : s.input.rst = false) :
    ∃ t, step s = .next t ∧ t.sy1 = s.input.btn ∧ t.sy2 = s.sy1 ∧ t.prev = s.sy2 ∧ t.pf = s.nextPf := by
  obtain ⟨m, -, hs⟩ := step_afterCycle s h
  exact ⟨_, hs, rfl, rfl, rfl, rfl⟩

/-- R91: the level that enters `SY1` at one edge is in `SY2` after the next. -/
theorem sy2_lags_pin_by_two {s : State} (h : noReset s 2) : ∃ t, runsTo s 2 t ∧ t.sy2 = (s.inputAt 0).btn := by
  obtain ⟨u, hu, hsy1, -⟩ := step_debouncer (noReset_head s 1 h)
  obtain ⟨t, ht, -, hsy2, -⟩ := step_debouncer (noReset_head u 0 (noReset_of_step s u 1 hu h))
  exact ⟨t, runsTo_succ s u t 1 hu (runsTo_one u t ht), hsy2.trans hsy1⟩

/-! #### The ways into POLL and PRESS (R95, R100, R140) -/

theorem MainCase.ph_eq_poll_iff {s m : State} (h : MainCase s m) :
    m.ph = .poll ↔ s.ph = .wait ∧ s.cnt = 0#32 := by
  cases h with
  | waitExit hp hc => simp [hp, hc]
  | waitCount hp hc => simp [hp, hc]
  | _ hp => simp [hp]

theorem MainCase.ph_eq_press_iff {s m : State} (h : MainCase s m) :
    m.ph = .press ↔ s.ph = .confirm ∧ s.cnt = 0#32 ∧ s.sy2 = false := by
  cases h with
  | confirmPress hp hc hy => simp [hp, hc, hy]
  | confirmNoise hp hc hy => simp [hp, hy]
  | confirmCount hp hc => simp [hp, hc]
  | _ hp => simp [hp]

@[simp] theorem State.afterReset_ph (s : State) : s.afterReset.ph = .renderP := rfl

/-- R140: a cycle ends in POLL exactly when it is the last one of a WAIT phase. -/
theorem step_to_poll_iff {s t : State} (h : step s = .next t) :
    t.ph = .poll ↔ s.input.rst = false ∧ s.ph = .wait ∧ s.cnt = 0#32 := by
  obtain ⟨hr, rfl⟩ | ⟨hr, m, hm, rfl⟩ := step_mainCase s t h
  · simp [hr]
  · simp [hr, hm.ph_eq_poll_iff]

/-- R100: a cycle ends in PRESS exactly when it has a Press Event. -/
theorem step_to_press_iff {s t : State} (h : step s = .next t) : t.ph = .press ↔ s.pressEv = true := by
  rw [State.pressEv_iff]
  obtain ⟨hr, rfl⟩ | ⟨hr, m, hm, rfl⟩ := step_mainCase s t h
  · simp [hr]
  · simp [hr, hm.ph_eq_press_iff]

/-- R95: an edge in the cycle of a POLL that goes on to the tick stays pending. -/
theorem step_poll_idle_of_fall {s : State} (hr : s.input.rst = false) (hp : s.ph = .poll) (hpf : s.pf = false)
    (hf : s.fall = true) : ∃ t, step s = .next t ∧ t.ph = .shift ∧ t.pf = true := by
  have hop : exec (sequencerOp s.ph s.gs) s = .next (s.setPh .shift) := by
    rw [hp]
    exact exec_poll_of_idle hpf
  have hc : s.clearNow = false := State.clearNow_of_ph_ne (by simp [hp])
  refine ⟨_, step_of_op s _ hr hop, rfl, ?_⟩
  simp [State.nextPf_of_not_clear s hc, hf]

/-! #### The statements -/

/-- Settles O13: EDGE is among the operations of every cycle without reset, and its three equations, with the conditions
read over registers. -/
theorem edgeSetsThePendingFlag : Obligations.EdgeSetsThePendingFlag := fun s =>
  ⟨fun hr => ⟨_, decode_fetch_of_no_reset hr⟩,
    fun hprev hsy2 hc => exec_edge_of_fall (s.fall_iff.2 ⟨hprev, hsy2⟩) (Bool.eq_false_iff.2 (mt s.clearNow_iff.1 hc)),
    fun hf => exec_edge_of_no_fall (Bool.eq_false_iff.2 (mt s.fall_iff.1 hf)),
    fun hp hc => exec_edge_of_clear (s.clearNow_iff.2 ⟨hp, hc⟩)⟩

/-- Settles O12: the operations of a cycle by `decode_fetch_of_no_reset`, the shift by `step_debouncer`, the lag by
`sy2_lags_pin_by_two`. -/
theorem syncShiftsTheLine : Obligations.SyncShiftsTheLine := by
  refine ⟨fun _ hr => ⟨_, decode_fetch_of_no_reset hr⟩, exec_sync, fun _ hr => ?_, fun _ => sy2_lags_pin_by_two⟩
  obtain ⟨t, ht, hsy1, hsy2, hprev, -⟩ := step_debouncer hr
  exact ⟨t, ht, hsy1, hsy2, hprev⟩

/-- Settles O14: every cycle without reset leaves `nextPf` in `PF`, which is R98's formula. -/
theorem pendingFlagAfterACycle : Obligations.PendingFlagAfterACycle := by
  intro s hr
  obtain ⟨t, ht, -, -, -, hpf⟩ := step_debouncer hr
  exact ⟨t, ht, hpf.trans s.nextPf_eq⟩

/-- Settles O17: POLL's two branches as equations, the late edge by `step_poll_idle_of_fall`, the way in by
`step_to_poll_iff`. -/
theorem pollStartsOrGoesOn : Obligations.PollStartsOrGoesOn := by
  refine ⟨fun s hp => ?_, fun s hpf => ?_, fun s => exec_poll_of_idle, fun s => step_poll_idle_of_fall,
    fun s t ht _ hp => ?_⟩
  · rw [decodeSel_sel, hp]
    rfl
  · exact ⟨_, settleCycles_toNat.trans settleCount_eq, exec_poll_of_pending hpf⟩
  · obtain ⟨-, hwait, -⟩ := (step_to_poll_iff ht).1 hp
    exact hwait

/-- Settles O20: both directions are `step_to_press_iff`; a PRESS cycle is no CONFIRM cycle, so it has no event. -/
theorem pressEventsArePressCycles : Obligations.PressEventsArePressCycles := by
  refine ⟨fun s => ?_, fun s hev => ?_, fun s t ht hp => (step_to_press_iff ht).1 hp⟩
  · simp [State.pressEv, State.clearNow, Bool.and_assoc]
  · obtain ⟨hr, -⟩ := s.pressEv_iff.1 hev
    obtain ⟨m, -, ht⟩ := step_afterCycle s hr
    have hp : (s.afterCycle m).ph = .press := (step_to_press_iff ht).2 hev
    exact ⟨_, ht, hp, State.pressEv_of_ph_ne (by rw [hp]; decide)⟩

end Sys2Proof.Machine

/-! ### The cut and the runs of a row (41_game_fsm.md R111 to R117)

Patterns are compared cell by cell. That the scan finds the longest run is a loop invariant over its columns, stated for every
stretch of lit columns and not only for the maximal ones: a stretch that nothing longer beats cannot be extended, so it is a
run. -/

namespace Sys2Proof.Machine

/-! #### Patterns, cell by cell (R12) -/

theorem mem_columns (c : Idx) : c ∈ columns := by
  revert c
  decide

@[simp] theorem cell_zero (c : Idx) : cell 0x00#8 c = false := by simp [cell]

@[simp] theorem cell_and (p q : Byte) (c : Idx) : cell (p &&& q) c = (cell p c && cell q c) := by simp [cell]

@[simp] theorem cell_not (p : Byte) (c : Idx) : cell (~~~p) c = !cell p c := by
  simp [cell, show 7 - c.val < 8 by omega]

/-- R12: the eight cells are the whole pattern. -/
theorem eq_iff_cells (p q : Byte) : p = q ↔ ∀ c, cell p c = cell q c := by
  refine ⟨fun h _ => by rw [h], fun h => BitVec.eq_of_getLsbD_eq fun i hi => ?_⟩
  have hc := h ⟨7 - i, by omega⟩
  rwa [cell, cell, show 7 - (7 - i) = i by omega] at hc

theorem ne_zero_iff_lit (p : Byte) : p ≠ 0x00#8 ↔ ∃ c, cell p c = true := by
  simp [eq_iff_cells p 0x00#8]

theorem within_iff (p q : Byte) : within p q ↔ ∀ c, cell p c = true → cell q c = true := by
  simp [within, eq_iff_cells _ 0x00#8]

theorem within_and_right (p q : Byte) : within (p &&& q) q := by
  rw [within_iff]
  intro c hc
  rw [cell_and, Bool.and_eq_true] at hc
  exact hc.2

/-- R12: `colmask(lo, hi)` is the columns `lo..hi`. -/
theorem cell_colmask {lo hi : Idx} (h : lo ≤ hi) (c : Idx) : cell (colmask lo hi) c = true ↔ lo ≤ c ∧ c ≤ hi := by
  revert lo hi c
  decide

theorem popcount_colmask {lo hi : Idx} (h : lo ≤ hi) : popcount (colmask lo hi) = hi.val - lo.val + 1 := by
  revert lo hi
  decide

/-! #### Stretches and runs (R111) -/

/-- Columns `lo..hi` are all lit; unlike a run, a stretch may have a lit neighbour. -/
def LitStretch (p : Byte) (r : Run) : Prop :=
  r.lo.val ≤ r.hi.val ∧ ∀ c : Idx, r.lo.val ≤ c.val → c.val ≤ r.hi.val → cell p c = true

theorem litStretch_single {p : Byte} {c : Idx} (hc : cell p c = true) : LitStretch p ⟨c, c⟩ :=
  ⟨le_refl _, fun _ hlo hhi => (Fin.ext (le_antisymm hlo hhi) : c = _) ▸ hc⟩

/-- A lit column next to a stretch makes it longer. -/
theorem LitStretch.extend_left {p : Byte} {r : Run} {c : Idx} (h : LitStretch p r) (hc : cell p c = true)
    (hlo : c.val + 1 = r.lo.val) : LitStretch p ⟨c, r.hi⟩ := by
  obtain ⟨hle, hlit⟩ := h
  refine ⟨by dsimp only; omega, fun d hcd hdh => ?_⟩
  obtain rfl | hd := eq_or_ne d c
  · exact hc
  · exact hlit d (by have := Fin.val_ne_of_ne hd; dsimp only at hcd; omega) hdh

theorem LitStretch.extend_right {p : Byte} {r : Run} {c : Idx} (h : LitStretch p r) (hc : cell p c = true)
    (hhi : c.val = r.hi.val + 1) : LitStretch p ⟨r.lo, c⟩ := by
  obtain ⟨hle, hlit⟩ := h
  refine ⟨by dsimp only; omega, fun d hld hdc => ?_⟩
  obtain rfl | hd := eq_or_ne d c
  · exact hc
  · exact hlit d hld (by have := Fin.val_ne_of_ne hd; dsimp only at hdc; omega)

/-- R111: a run is a stretch with no lit column next to either end. -/
theorem isRun_iff (p : Byte) (r : Run) : isRun p r = true ↔
    LitStretch p r ∧ (∀ c : Idx, c.val + 1 = r.lo.val → cell p c = false) ∧
      (∀ c : Idx, c.val = r.hi.val + 1 → cell p c = false) := by
  simp only [isRun, LitStretch, Bool.and_eq_true, decide_eq_true_eq, List.all_eq_true, mem_columns, forall_true_left,
    Bool.or_eq_true, Bool.not_eq_true', Bool.and_eq_false_iff, Bool.or_eq_false_iff, decide_eq_false_iff_not, Fin.le_def]
  grind

/-- A stretch that no other one exceeds in length is a run. -/
theorem isRun_of_longest {p : Byte} {r : Run} (h : LitStretch p r) (hmax : ∀ q, LitStretch p q → q.length ≤ r.length) :
    isRun p r = true := by
  have hle := h.1
  refine (isRun_iff p r).2 ⟨h, fun c hlo => ?_, fun c hhi => ?_⟩ <;> by_contra hc <;> rw [Bool.not_eq_false] at hc
  · have := hmax _ (h.extend_left hc hlo)
    simp only [Run.length] at this
    omega
  · have := hmax _ (h.extend_right hc hhi)
    simp only [Run.length] at this
    omega

/-! #### The scan (R112) -/

/-- What the scan knows before column `n`: `cur` is the length of the stretch that ends there, and the best one is a stretch
that no stretch before column `n` beats. -/
structure ScanInv (p : Byte) (n : Nat) (s : Scan) : Prop where
  cur_le : s.cur ≤ n
  cur_lit : ∀ c : Idx, n ≤ c.val + s.cur → c.val < n → cell p c = true
  cur_stop : ∀ c : Idx, c.val + s.cur + 1 = n → cell p c = false
  best_le : s.bestLen ≤ s.bestHi.val + 1
  best_lit : ∀ c : Idx, s.bestHi.val < c.val + s.bestLen → c.val ≤ s.bestHi.val → cell p c = true
  best_max : ∀ q, LitStretch p q → q.hi.val < n →
    q.length < s.bestLen ∨ (q.length = s.bestLen ∧ q.hi.val ≤ s.bestHi.val)

theorem ScanInv.start (p : Byte) : ScanInv p 0 { bestLen := 0, bestHi := 0, cur := 0 } where
  cur_le := le_refl 0
  cur_lit c _ hc := by omega
  cur_stop c hc := by omega
  best_le := Nat.zero_le _
  best_lit c hlo hhi := by dsimp only at hlo hhi; omega
  best_max q _ hq := by omega

/-- A stretch that ends in column `c` is no longer than the one the scan counts. -/
theorem ScanInv.length_le {p : Byte} {s : Scan} {c : Idx} (h : ScanInv p c.val s) {q : Run} (hq : LitStretch p q)
    (hhi : q.hi.val = c.val) : q.length ≤ s.cur + 1 := by
  obtain ⟨hle, hlit⟩ := hq
  by_contra hlong
  simp only [Run.length] at hlong
  obtain ⟨d, hd⟩ : ∃ d : Idx, d.val = c.val - (s.cur + 1) := ⟨⟨c.val - (s.cur + 1), by omega⟩, rfl⟩
  have hdark := h.cur_stop d (by omega)
  rw [hlit d (by omega) (by omega)] at hdark
  exact absurd hdark (by decide)

/-- A stretch before column `c + 1` ends in column `c` or before it. -/
theorem ScanInv.max_succ {p : Byte} {s : Scan} {c : Idx} (h : ScanInv p c.val s) {q : Run} (hq : LitStretch p q)
    (hlt : q.hi.val < c.val + 1) :
    (q.hi.val = c.val ∧ q.length ≤ s.cur + 1) ∨
      (q.hi.val < c.val ∧ (q.length < s.bestLen ∨ (q.length = s.bestLen ∧ q.hi.val ≤ s.bestHi.val))) := by
  obtain hhi | hhi : q.hi.val = c.val ∨ q.hi.val < c.val := by omega
  · exact .inl ⟨hhi, h.length_le hq hhi⟩
  · exact .inr ⟨hhi, h.best_max q hq hhi⟩

theorem ScanInv.cur_lit_succ {p : Byte} {s : Scan} {c : Idx} (h : ScanInv p c.val s) (hc : cell p c = true) (d : Idx)
    (hlo : c.val ≤ d.val + s.cur) (hhi : d.val ≤ c.val) : cell p d = true := by
  obtain rfl | hd := eq_or_ne d c
  · exact hc
  · exact h.cur_lit d hlo (by have := Fin.val_ne_of_ne hd; omega)

theorem ScanInv.dark {p : Byte} {s : Scan} {c : Idx} (h : ScanInv p c.val s) (hc : cell p c = false) :
    ScanInv p (c.val + 1) { s with cur := 0 } where
  cur_le := Nat.zero_le _
  cur_lit d hlo hhi := by dsimp only at hlo; omega
  cur_stop d hd := by
    obtain rfl : d = c := Fin.ext (by dsimp only at hd; omega)
    exact hc
  best_le := h.best_le
  best_lit := h.best_lit
  best_max q hq hlt := by
    obtain ⟨hhi, -⟩ | ⟨-, hmax⟩ := h.max_succ hq hlt
    · have hlit := hq.2 q.hi hq.1 (le_refl _)
      rw [Fin.ext hhi, hc] at hlit
      exact absurd hlit (by decide)
    · exact hmax

theorem ScanInv.lit_best {p : Byte} {s : Scan} {c : Idx} (h : ScanInv p c.val s) (hc : cell p c = true)
    (hbest : s.bestLen ≤ s.cur + 1) : ScanInv p (c.val + 1) { bestLen := s.cur + 1, bestHi := c, cur := s.cur + 1 } where
  cur_le := Nat.succ_le_succ h.cur_le
  cur_lit d hlo hhi := h.cur_lit_succ hc d (by dsimp only at hlo; omega) (by omega)
  cur_stop d hd := h.cur_stop d (by dsimp only at hd; omega)
  best_le := Nat.succ_le_succ h.cur_le
  best_lit d hlo hhi := h.cur_lit_succ hc d (by dsimp only at hlo; omega) hhi
  best_max q hq hlt := by
    have := h.max_succ hq hlt
    dsimp only
    omega

theorem ScanInv.lit_less {p : Byte} {s : Scan} {c : Idx} (h : ScanInv p c.val s) (hc : cell p c = true)
    (hless : ¬ s.bestLen ≤ s.cur + 1) : ScanInv p (c.val + 1) { s with cur := s.cur + 1 } where
  cur_le := Nat.succ_le_succ h.cur_le
  cur_lit d hlo hhi := h.cur_lit_succ hc d (by dsimp only at hlo; omega) (by omega)
  cur_stop d hd := h.cur_stop d (by dsimp only at hd; omega)
  best_le := h.best_le
  best_lit := h.best_lit
  best_max q hq hlt := by
    have := h.max_succ hq hlt
    dsimp only
    omega

/-- R112: the invariant along one column, by the branches of the scan. -/
theorem ScanInv.column {p : Byte} {s : Scan} (c : Idx) (h : ScanInv p c.val s) :
    ScanInv p (c.val + 1) (scanColumn p s c) := by
  unfold scanColumn
  split
  case isTrue hc =>
    split
    case isTrue hbest => exact h.lit_best hc hbest
    case isFalse hless => exact h.lit_less hc hless
  case isFalse hc => exact h.dark (by simpa using hc)

theorem scanRow_inv (p : Byte) : ScanInv p 8 (scanRow p) :=
  ScanInv.start p |>.column 0 |>.column 1 |>.column 2 |>.column 3 |>.column 4 |>.column 5 |>.column 6 |>.column 7

/-! #### The longest run and what `narrow` keeps (R111, R113) -/

theorem scanRow_bestLen_ne_zero {p : Byte} (hp : p ≠ 0x00#8) : (scanRow p).bestLen ≠ 0 := by
  obtain ⟨c, hc⟩ := (ne_zero_iff_lit p).1 hp
  have := (scanRow_inv p).best_max ⟨c, c⟩ (litStretch_single hc) c.isLt
  simp only [Run.length] at this
  omega

/-- R111: what the scan answers is a stretch of lit columns, and no stretch of the row is longer, nor as long and further to
the right. -/
theorem longestRun_spec {p : Byte} {r : Run} (h : longestRun p = some r) :
    LitStretch p r ∧ ∀ q, LitStretch p q → q.length < r.length ∨ (q.length = r.length ∧ q.hi.val ≤ r.hi.val) := by
  have hinv := scanRow_inv p
  have hle := hinv.best_le
  unfold longestRun at h
  split at h
  case isTrue => exact absurd h (by simp)
  case isFalse hne =>
    obtain rfl := Option.some.inj h
    refine ⟨⟨Nat.sub_le _ _, fun c hlo hhi => hinv.best_lit c (by dsimp only at hlo; omega) hhi⟩, fun q hq => ?_⟩
    have := hinv.best_max q hq q.hi.isLt
    simp only [Run.length] at this ⊢
    omega

theorem longestRun_isRun {p : Byte} {r : Run} (h : longestRun p = some r) : isRun p r = true := by
  obtain ⟨hstretch, hmax⟩ := longestRun_spec h
  exact isRun_of_longest hstretch fun q hq => by have := hmax q hq; omega

@[simp] theorem longestRun_zero : longestRun 0x00#8 = none := rfl

theorem longestRun_of_ne_zero {p : Byte} (hp : p ≠ 0x00#8) : ∃ r, longestRun p = some r :=
  ⟨_, if_neg (scanRow_bestLen_ne_zero hp)⟩

theorem narrow_of_longestRun {p : Byte} {r : Run} (h : longestRun p = some r) : narrow p = colmask r.lo r.hi := by
  rw [narrow, h]

@[simp] theorem narrow_zero : narrow 0x00#8 = 0x00#8 := rfl

/-- R113: `narrow` adds no cell. -/
theorem narrow_within (p : Byte) : within (narrow p) p := by
  obtain rfl | hp := eq_or_ne p 0x00#8
  · decide
  · obtain ⟨r, hr⟩ := longestRun_of_ne_zero hp
    obtain ⟨⟨hle, hlit⟩, -⟩ := longestRun_spec hr
    rw [narrow_of_longestRun hr, within_iff]
    intro c hc
    obtain ⟨hlo, hhi⟩ := (cell_colmask hle c).1 hc
    exact hlit c hlo hhi

/-! #### The spawned bar (R117) -/

/-- R117: a bar of the columns from `lo` on has the `8 - lo` highest columns. -/
theorem spawn_eq_colmask (lo : Idx) : spawn (8 - lo.val) = colmask lo 7 := by
  rw [spawn, colmask, show (7 : Idx).val - lo.val + 1 = 8 - lo.val by show 7 - lo.val + 1 = _; omega]
  simp

theorem spawn_toNat {w : Nat} (h : w ≤ 8) : (spawn w).toNat = 2 ^ w - 1 := by
  interval_cases w <;> rfl

/-! #### The statements on rows -/

/-- Settles O23: runs by `isRun_iff`, and the scan's answer by `longestRun_spec`, since a run is a stretch. -/
theorem longestRunIsLongestThenRightmost : Obligations.LongestRunIsLongestThenRightmost := by
  refine ⟨fun p r => ?_, longestRun_zero, fun p hp => ?_⟩
  · rw [isRun_iff, LitStretch, and_assoc]
    exact Iff.rfl
  · obtain ⟨r, hr⟩ := longestRun_of_ne_zero hp
    refine ⟨r, hr, longestRun_isRun hr, fun q hq => ?_⟩
    exact (longestRun_spec hr).2 q ((isRun_iff p q).1 hq).1

/-- Settles O24: `narrow_within`, and the rules of `colmask` for the longest run. -/
theorem narrowKeepsTheLongestRun : Obligations.NarrowKeepsTheLongestRun := by
  refine ⟨narrow_zero, by decide, fun p => ⟨narrow_within p, fun r hr => ?_⟩⟩
  obtain ⟨⟨hle, -⟩, -⟩ := longestRun_spec hr
  rw [narrow_of_longestRun hr]
  exact ⟨rfl, ⟨r.lo, r.hi, hle, rfl⟩, popcount_colmask hle, cell_colmask hle⟩

/-- Settles O25: the Support Row by its two laws, the survivors cell by cell. -/
theorem survivorsAreSupported : Obligations.SurvivorsAreSupported := by
  refine fun s => ⟨fun a r hr => ?_, s.support_seven, rfl, within_and_right _ _, cell_and _ _⟩
  rw [s.support_of_lt a (by omega)]
  exact congrArg s.row (Fin.ext hr.symm)

/-- Settles O26: a spawned bar is the mask of the columns `8 - w` to 7. -/
theorem spawnIsRightAligned : Obligations.SpawnIsRightAligned := by
  refine ⟨by decide, fun w hpos hle => ?_⟩
  obtain ⟨lo, hlo⟩ : ∃ lo : Idx, lo.val = 8 - w := ⟨⟨8 - w, by omega⟩, rfl⟩
  have hle7 : lo ≤ 7 := Fin.le_last lo
  have hmask : spawn w = colmask lo 7 := by rw [← spawn_eq_colmask, hlo, Nat.sub_sub_self hle]
  refine ⟨spawn_toNat hle, fun lo' hlo' => ?_, ?_, fun c => ?_⟩
  · rw [hmask, Fin.ext (hlo.trans hlo'.symm)]
  · rw [hmask, popcount_colmask hle7, hlo]
    show 7 - (8 - w) + 1 = w
    omega
  · rw [hmask, cell_colmask hle7, ← hlo]
    exact and_iff_left (Fin.le_last c)

end Sys2Proof.Machine

/-! ### The game's transitions (41_game_fsm.md R118 to R128)

PRESS_CUT's two outcomes, register by register; what a cut depends on follows from them, since they name nothing else of the
state. -/

namespace Sys2Proof.Machine

/-! #### PRESS_CUT (R118 to R120) -/

theorem exec_pressCut (s : State) : exec .pressCut s = .next (pressCutWith Config.values s) := rfl

theorem rowAbove_val_succ {a : Idx} (h : a ≠ 0) : (rowAbove a).val + 1 = a.val :=
  Nat.sub_add_cancel (Nat.pos_of_ne_zero (Fin.val_ne_of_ne h))

/-- What every outcome of a cut does: the surviving row is written, the re-render starts, and neither the wait counter nor
anything outside the game and the sequencer changes. -/
theorem pressCutWith_common (v : Config.Values) (s : State) :
    (pressCutWith v s).row s.ar = s.survivors ∧ (pressCutWith v s).ph = .renderP ∧ (pressCutWith v s).ri = 0 ∧
      (pressCutWith v s).cnt = s.cnt ∧ sameDebouncer s (pressCutWith v s) ∧ sameOutside s (pressCutWith v s) := by
  obtain ⟨-, h⟩ | ⟨⟨-, har⟩, h⟩ := pressCutWith_cases v s
  · simp [h, sameDebouncer, sameOutside]
  · simp [h, sameDebouncer, sameOutside, State.setRow_row_of_ne _ _ _ _ (rowAbove_ne s.ar har).symm]

/-- R119: the outcomes that end the game. -/
theorem pressCutWith_ends (v : Config.Values) {s : State} (hend : s.survivors = 0x00#8 ∨ s.ar = 0) :
    (pressCutWith v s).gs = .ended ∧ (pressCutWith v s).ar = s.ar ∧ (pressCutWith v s).spd = s.spd ∧
      ∀ r : Idx, r ≠ s.ar → (pressCutWith v s).row r = s.row r := by
  obtain ⟨-, h⟩ | ⟨⟨hsurv, har⟩, -⟩ := pressCutWith_cases v s
  · simp +contextual [h, State.setRow_row_of_ne]
  · exact absurd hend (not_or.2 ⟨hsurv, har⟩)

/-- R120: the outcome with which the game goes on. -/
theorem pressCutWith_descends (v : Config.Values) {s : State} (hsurv : s.survivors ≠ 0x00#8) (har : s.ar ≠ 0) :
    (pressCutWith v s).gs = s.gs ∧ (pressCutWith v s).ar = rowAbove s.ar ∧
      (pressCutWith v s).spd = s.spd + speedIncrement v ∧
      (pressCutWith v s).row (rowAbove s.ar) = spawn (popcount s.survivors) ∧
      ∀ r : Idx, r ≠ s.ar → r ≠ rowAbove s.ar → (pressCutWith v s).row r = s.row r := by
  obtain ⟨hend, -⟩ | ⟨-, h⟩ := pressCutWith_cases v s
  · exact absurd hend (not_or.2 ⟨hsurv, har⟩)
  · simp +contextual [h, State.setRow_row_of_ne]

/-- R115: the survivors are a function of the active row and the Support Row. -/
theorem survivors_congr {s s' : State} (har : s.ar = s'.ar) (hrow : s.row s.ar = s'.row s.ar)
    (hsupport : s.support s.ar = s'.support s.ar) : s.survivors = s'.survivors := by
  rw [State.survivors, State.survivors, hrow, hsupport, har]

/-! #### PRESS_RESTART (R124) and the tick delay (R126) -/

theorem exec_pressRestart (s : State) : exec .pressRestart s = .next ((s.initGame.setPh .renderP).setRi 0) := rfl

/-- R122: the seed row as a number. -/
theorem seed_eq : seed = 0x7E#8 := by decide

/-- R126: what the two tests on `BASE_INTERVAL - s` come to is the lower clamp. -/
theorem intervalMs_eq_max (v : Config.Values) (spd : Speed) :
    intervalMs v spd = max v.minInterval (v.baseInterval - spd.toNat) := by
  unfold intervalMs
  split <;> omega

theorem intervalMs_antitone (v : Config.Values) {spd spd' : Speed} (h : spd.toNat ≤ spd'.toNat) :
    intervalMs v spd' ≤ intervalMs v spd := by
  rw [intervalMs_eq_max, intervalMs_eq_max]
  exact max_le_max_left _ (Nat.sub_le_sub_left h _)

/-! #### The statements on transitions -/

/-- Settles O27: what every cut does, then its two outcomes. -/
theorem pressCutOutcomes : Obligations.PressCutOutcomes := by
  refine ⟨fun s hp hg => ?_, fun s => ⟨_, exec_pressCut s, ?_⟩⟩
  · rw [decodeSel_sel, hp, hg]
    rfl
  · obtain ⟨hcut, hph, hri, hcnt, hdeb, hout⟩ := pressCutWith_common Config.values s
    refine ⟨hcut, hph, hri, hcnt, hdeb, hout, pressCutWith_ends _, fun hsurv har => ?_⟩
    obtain ⟨hgs, har', hspd, hbar, hrest⟩ := pressCutWith_descends Config.values hsurv har
    rw [har']
    exact ⟨hgs, rowAbove_val_succ har, hspd, hbar, hrest⟩

/-- Settles O28: both states have the same survivors, so the same outcome, and each outcome's equations name nothing else that
could differ. -/
theorem cutDependsOnFourThings : Obligations.CutDependsOnFourThings := by
  intro s s' t t' hrow hsupport har hspd hgs hgs' ht ht'
  have hsurv := survivors_congr har hrow hsupport
  rw [exec_pressCut, Host.Outcome.next.injEq] at ht ht'
  subst ht ht'
  obtain ⟨hcut, -⟩ := pressCutWith_common Config.values s
  obtain ⟨hcut', -⟩ := pressCutWith_common Config.values s'
  rw [← har, ← hsurv] at hcut'
  by_cases hend : s.survivors = 0x00#8 ∨ s.ar = 0
  · obtain ⟨hg, ha, hv, -⟩ := pressCutWith_ends Config.values hend
    obtain ⟨hg', ha', hv', -⟩ := pressCutWith_ends Config.values (s := s') (by rwa [← hsurv, ← har])
    exact ⟨by rw [ha, ha', har], by rw [hg, hg'], by rw [hv, hv', hspd], by rw [hcut, hcut'],
      fun hgoes => absurd (hg.symm.trans hgoes) (by decide)⟩
  · obtain ⟨hlit, hrow0⟩ := not_or.1 hend
    obtain ⟨hg, ha, hv, hbar, -⟩ := pressCutWith_descends Config.values hlit hrow0
    obtain ⟨hg', ha', hv', hbar', -⟩ :=
      pressCutWith_descends Config.values (s := s') (by rwa [← hsurv]) (by rwa [← har])
    exact ⟨by rw [ha, ha', har], by rw [hg, hg', hgs, hgs'], by rw [hv, hv', hspd], by rw [hcut, hcut'],
      fun _ => by rw [ha, hbar, har, hbar', hsurv]⟩

/-- Settles O29: the rows by `initGame_row`, the rest by what `init_game` and the re-render set and leave. -/
theorem restartGivesTheInitialFrame : Obligations.RestartGivesTheInitialFrame := by
  refine ⟨fun s hp hg => ?_, fun s => ⟨_, exec_pressRestart s, fun r => ?_, ?_⟩⟩
  · rw [decodeSel_sel, hp, hg]
    rfl
  · simp [State.initGame_row, seed_eq]
  · simp [sameDebouncer, sameOutside]

/-- Settles O30: the clamp, with R9's `1 ≤ MIN_INTERVAL ≤ BASE_INTERVAL`. -/
theorem intervalIsClamped : Obligations.IntervalIsClamped := by
  refine ⟨fun s => ?_, fun s s' => intervalMs_antitone _, by decide⟩
  obtain ⟨-, -, hpos, hle, -⟩ := values_spec
  rw [intervalMs_eq_max]
  omega

end Sys2Proof.Machine

/-! ### The tick (42_shift_sequencer.md R143, R144)

The rotation cell by cell, then the two operations of SHIFT as equations. -/

namespace Sys2Proof.Machine

/-! #### The rotation and the operations of SHIFT -/

/-- R143: bit `i` of `{p[6:0], p[7]}`, by the part it lies in. -/
theorem getLsbD_rol8 (p : Byte) (i : Nat) : (rol8 p).getLsbD i =
    if i < 1 then (p.extractLsb' 7 1).getLsbD i else (p.extractLsb' 0 7).getLsbD (i - 1) :=
  BitVec.getLsbD_append

/-- R143: `cell'(c) = cell((c + 1) mod 8)`; column 7 takes the old column 0. -/
theorem cell_rol8 (p : Byte) (c : Idx) : cell (rol8 p) c = cell p ⟨(c.val + 1) % 8, by omega⟩ := by
  obtain rfl | hc := eq_or_ne c 7
  · rw [cell, getLsbD_rol8]
    simp [cell]
  · have hlt : c.val < 7 := Fin.val_lt_last hc
    have hmod : (c.val + 1) % 8 = c.val + 1 := Nat.mod_eq_of_lt (by omega)
    have hhigh : ¬ 7 - c.val < 1 := by omega
    have hin : 7 - (c.val + 1) < 7 := by omega
    simp only [cell, getLsbD_rol8, hmod, if_neg hhigh, BitVec.getLsbD_extractLsb', Nat.sub_sub, hin, decide_true,
      Bool.true_and, Nat.zero_add]

theorem exec_shiftRot (s : State) :
    exec .shiftRot s = .next (((s.setRow s.ar (rol8 (s.row s.ar))).setPh .renderT).setRi 0) := rfl

theorem exec_shiftHold (s : State) : exec .shiftHold s = .next ((s.setPh .renderT).setRi 0) := rfl

/-! #### The statements on the tick -/

/-- Settles O31: the active row by `setRow_row_same`, its cells by `cell_rol8`, the other rows by `setRow_row_of_ne`. -/
theorem shiftRotMovesTheActiveRow : Obligations.ShiftRotMovesTheActiveRow := by
  refine ⟨fun s hp hg => ?_, by decide, fun s => ⟨_, exec_shiftRot s, ?_, fun c => ?_, fun r hr => ?_, ?_⟩⟩
  · rw [decodeSel_sel, hp, hg]
    rfl
  · simp
  · simp [State.cellAt, cell_rol8]
  · simp [State.setRow_row_of_ne, hr]
  · simp [sameDebouncer, sameOutside]

/-- Settles O32: the equation of SHIFT_HOLD, whose two updates are the two fields the statement names. -/
theorem shiftHoldOnlyMovesOn : Obligations.ShiftHoldOnlyMovesOn := by
  refine ⟨fun s hp hg => ?_, exec_shiftHold⟩
  rw [decodeSel_sel, hp, hg]
  rfl

end Sys2Proof.Machine

/-! ### The renderer (43_renderer.md R160 to R166)

RENDER_P and RENDER_T differ only in what follows row 7, so what an accepted write does is said once, for a render step with
any end of the pass that leaves the transport, the game and the surroundings alone. -/

namespace Sys2Proof.Machine

/-! #### The render step (R162) -/

/-- R163: the end of a pass in RENDER_P. -/
def State.toShift (s : State) : State := (s.setPh .shift).setRi 0

/-- R164, R147: the end of a pass in RENDER_T, at the Speed `spd`. -/
def State.toWait (spd : Speed) (s : State) : State :=
  ((s.setPh .wait).setRi 0).setCnt (intervalCycles Config.values spd)

theorem exec_renderP (s : State) : exec .renderP s = .next (s.renderStep State.toShift) := rfl

theorem exec_renderT (s : State) : exec .renderT s = .next (s.renderStep (State.toWait s.spd)) := rfl

/-- R162: without `rdy` the write stays on offer and nothing changes. -/
theorem State.renderStep_of_stall {s : State} (last : State → State) (h : s.input.rdy = false) :
    s.renderStep last = s := by
  simpa [h] using s.renderStep_cases last

/-- The state with the row `RI` accepted by the transport and nothing else done. -/
def State.sendRow (s : State) : State := s.setTx (s.tx.write (s.ri.val + 1) (s.row s.ri))

theorem State.renderStep_of_write {s : State} (last : State → State) (h : s.input.rdy = true) (hri : s.ri ≠ 7) :
    s.renderStep last = s.sendRow.setRi (s.ri + 1) := by
  simpa [State.sendRow, h, hri] using s.renderStep_cases last

theorem State.renderStep_of_last {s : State} (last : State → State) (h : s.input.rdy = true) (hri : s.ri = 7) :
    s.renderStep last = last s.sendRow := by
  simpa [State.sendRow, h, hri] using s.renderStep_cases last

/-- From `s` to `t` only the sequencer's registers may differ. -/
def KeepsAllButSequencer (s t : State) : Prop := sameGame s t ∧ sameDebouncer s t ∧ sameOutside s t

theorem keepsAllButSequencer_toShift (s : State) : KeepsAllButSequencer s s.toShift := by
  simp [KeepsAllButSequencer, State.toShift, sameGame, sameDebouncer, sameOutside]

theorem keepsAllButSequencer_toWait (spd : Speed) (s : State) : KeepsAllButSequencer s (s.toWait spd) := by
  simp [KeepsAllButSequencer, State.toWait, sameGame, sameDebouncer, sameOutside]

/-- With `rdy` a render step is the accepted write and an update of the sequencer, in the last row as in the others. -/
theorem State.renderStep_keeps {s : State} {last : State → State} (h : s.input.rdy = true)
    (hlast : ∀ u, KeepsAllButSequencer u (last u)) : KeepsAllButSequencer s.sendRow (s.renderStep last) := by
  by_cases hri : s.ri = 7
  · rw [State.renderStep_of_last last h hri]
    exact hlast _
  · rw [State.renderStep_of_write last h hri]
    simp [KeepsAllButSequencer, sameGame, sameDebouncer, sameOutside]

/-- R162, R58: what holds after the write of row `RI` was accepted, whatever the sequencer does with it. -/
theorem accepted_write_spec {s t : State} (h : KeepsAllButSequencer s.sendRow t) :
    t.tx.read (regNumber s.ri).toNat = some (s.row s.ri) ∧ (regNumber s.ri).toNat = s.ri.val + 1 ∧
      (∀ a, a ≠ (regNumber s.ri).toNat → t.tx.read a = s.tx.read a) ∧ sameGame s t ∧ sameDebouncer s t ∧
      t.stim = s.stim ∧ t.cycle = s.cycle := by
  obtain ⟨hgame, hdeb, htx, hstim, hcycle⟩ := h
  refine ⟨?_, regNumber_toNat _, fun a ha => ?_, hgame, hdeb, hstim, hcycle⟩
  · rw [htx, regNumber_toNat]
    exact Memory.read_write_same _ _ _
  · rw [regNumber_toNat] at ha
    rw [htx]
    exact Memory.read_write_of_ne _ _ _ _ ha

/-- R162: before row 7 the pass goes on to the next row, in the same phase and with the counter kept. -/
theorem State.renderStep_next_row {s : State} (last : State → State) (h : s.input.rdy = true) (hri : s.ri ≠ 7) :
    (s.renderStep last).ph = s.ph ∧ (s.renderStep last).cnt = s.cnt ∧ (s.renderStep last).ri.val = s.ri.val + 1 := by
  rw [State.renderStep_of_write last h hri]
  exact ⟨rfl, rfl, Fin.val_add_one_of_lt (Fin.lt_last_iff_ne_last.2 hri)⟩

/-- R163: a pass whose end leaves `CNT` alone leaves it alone throughout. -/
theorem State.renderStep_cnt {last : State → State} (s : State) (hlast : ∀ u, (last u).cnt = u.cnt) :
    (s.renderStep last).cnt = s.cnt := by
  obtain ⟨-, h⟩ | ⟨-, -, h⟩ | ⟨-, -, h⟩ := s.renderStep_cases last <;> simp [h, hlast]

/-! #### The transport outputs (R166) -/

theorem State.rendering_iff (s : State) : s.rendering = true ↔ s.input.rst = false ∧ renderPhase s := by
  simp [State.rendering]

@[simp] theorem State.outputs_wrValid (s : State) : s.outputs.wrValid = s.rendering := rfl

theorem State.outputs_of_rendering {s : State} (h : s.rendering = true) :
    s.outputs.wrReg = regNumber s.ri ∧ s.outputs.wrData = s.row s.ri := by
  simp [State.outputs, h]

theorem State.outputs_of_not_rendering {s : State} (h : s.rendering = false) :
    s.outputs.wrReg = 0x00#8 ∧ s.outputs.wrData = 0x00#8 ∧ s.accepts = false := by
  simp [State.outputs, State.accepts, h]

/-- R58: no row is written to register 0. -/
theorem regNumber_ne_zero (r : Idx) : regNumber r ≠ 0x00#8 := by
  intro h
  have hval : r.val + 1 = 0 := (regNumber_toNat r).symm.trans (congrArg BitVec.toNat h)
  omega

/-! #### The statements on the renderer -/

/-- Settles O38: the packed storage is the row, and a cell of the row is its bit. -/
theorem rowBitsAreTheRow : Obligations.RowBitsAreTheRow := by
  refine fun s r c => ⟨?_, s.rowBits_eq_row r⟩
  rw [State.rowBits_eq_row]
  rfl

/-- Settles O39: the stall, then the accepted write by `accepted_write_spec` with the two ways on; neither way on writes
`CNT`. -/
theorem renderPStep : Obligations.RenderPStep := by
  refine fun s => ⟨fun hp => ?_, fun hstall => ?_, fun hrdy => ⟨_, exec_renderP s, ?_⟩⟩
  · rw [decodeSel_sel, hp]
    rfl
  · rw [exec_renderP, State.renderStep_of_stall _ hstall]
  · obtain ⟨hread, hreg, hrest, hgame, hdeb, hstim, hcycle⟩ :=
      accepted_write_spec (State.renderStep_keeps hrdy keepsAllButSequencer_toShift)
    refine ⟨hread, hreg, hrest, hgame, hdeb, s.renderStep_cnt fun _ => rfl, hstim, hcycle, fun hri => ?_, fun hri => ?_⟩
    · obtain ⟨hph, -, hnext⟩ := State.renderStep_next_row State.toShift hrdy hri
      exact ⟨hph, hnext⟩
    · rw [State.renderStep_of_last _ hrdy hri]
      exact ⟨rfl, rfl⟩

/-- Settles O40: as RENDER_P, and the tick delay of the Speed is loaded whole by `intervalCycles_toNat`. -/
theorem renderTStep : Obligations.RenderTStep := by
  refine fun s => ⟨fun hp => ?_, fun hstall => ?_, fun hrdy => ⟨_, exec_renderT s, ?_⟩⟩
  · rw [decodeSel_sel, hp]
    rfl
  · rw [exec_renderT, State.renderStep_of_stall _ hstall]
  · obtain ⟨hread, hreg, hrest, hgame, hdeb, hstim, hcycle⟩ :=
      accepted_write_spec (State.renderStep_keeps hrdy (keepsAllButSequencer_toWait s.spd))
    refine ⟨hread, hreg, hrest, hgame, hdeb, hstim, hcycle, State.renderStep_next_row _ hrdy, fun hri => ?_⟩
    rw [State.renderStep_of_last _ hrdy hri]
    exact ⟨rfl, rfl, intervalCycles_toNat s.spd⟩

/-- Settles O42: all three clauses by whether the block is rendering, which `rendering_iff` reads over `rst` and the phase. -/
theorem outputsAreGated : Obligations.OutputsAreGated := by
  refine fun s => ⟨fun hrst hph => ?_, fun hgate => ?_, fun hvalid => ?_⟩
  · have hrend : s.rendering = true := s.rendering_iff.2 ⟨hrst, hph⟩
    obtain ⟨hreg, hdata⟩ := State.outputs_of_rendering hrend
    exact ⟨hrend, by rw [hreg, regNumber_toNat], hdata⟩
  · have hrend : s.rendering = false := Bool.eq_false_iff.2 fun h => by
      obtain ⟨hrst, hph⟩ := s.rendering_iff.1 h
      exact hgate.elim (fun hr => absurd (hrst.symm.trans hr) Bool.false_ne_true) (fun hn => hn hph)
    exact ⟨hrend, State.outputs_of_not_rendering hrend⟩
  · obtain ⟨hreg, -⟩ := State.outputs_of_rendering hvalid
    rw [hreg]
    exact regNumber_ne_zero _

end Sys2Proof.Machine

/-! ### The cycle's operations and their encodings (30_encoding.md R70 to R78)

An operation is among the cycle's operations exactly when its row of the opcode table selects it, and laying a row over words
changes nothing exactly when the row selects its operation on them. Encoding and decoding agree because both are read off the
row. -/

namespace Sys2Proof

open Machine

/-! #### The operations of a cycle word (R70, R73, R78) -/

theorem decode_of_rst {w : CycleWord} (h : w.inp.getLsbD 2 = true) : decode w = .ok [.reset] := by
  rw [decode, decodeMain, decodePin, if_pos h]

theorem decodeMain_of_no_rst {w : CycleWord} (h : w.inp.getLsbD 2 = false) : decodeMain w = decodeSel w.sel := by
  rw [decodeMain, decodePin, if_neg (by rw [h]; decide)]

theorem decode_of_selWord {w : CycleWord} {ph : Phase} {gs : GameState} (h : w.inp.getLsbD 2 = false)
    (hsel : w.sel = selWord ph gs) : decode w = .ok [.sync, .edge, sequencerOp ph gs] :=
  decode_of_decodeMain (by rw [decodeMain_of_no_rst h, hsel, decodeSel_selWord]) (sequencerOp_ne_reset ph gs)

theorem decode_of_reserved {w : CycleWord} (h : w.inp.getLsbD 2 = false) (hsel : w.sel &&& 0xE#4 = 0xE#4) :
    decode w = .error (.reservedSelection w.sel) := by
  rw [decode, decodeMain_of_no_rst h, decodeSel_of_reserved hsel]

theorem selWellFormed_eq_false_iff (sel : BitVec 4) : selWellFormed sel = false ↔ sel &&& 0xE#4 = 0xE#4 := by
  rw [reserved_iff_phaseField, selWellFormed, bne_eq_false_iff_eq]

/-- R73, R78: the three things a cycle word can be. -/
theorem cycleWord_cases (w : CycleWord) :
    (w.inp.getLsbD 2 = true ∧ decode w = .ok [.reset]) ∨
    (w.inp.getLsbD 2 = false ∧ ∃ ph gs, w.sel = selWord ph gs ∧ decode w = .ok [.sync, .edge, sequencerOp ph gs]) ∨
    (w.inp.getLsbD 2 = false ∧ selWellFormed w.sel = false ∧ decode w = .error (.reservedSelection w.sel)) := by
  cases h : w.inp.getLsbD 2 with
  | true => exact .inl ⟨rfl, decode_of_rst h⟩
  | false =>
    obtain ⟨ph, gs, hsel⟩ | hres := selWord_or_reserved w.sel
    · exact .inr (.inl ⟨rfl, ph, gs, hsel, decode_of_selWord h hsel⟩)
    · exact .inr (.inr ⟨rfl, (selWellFormed_eq_false_iff _).2 hres, decode_of_reserved h hres⟩)

theorem decode_of_wellFormed {w : CycleWord} (h : w.wellFormed = true) : ∃ ops, decode w = .ok ops := by
  obtain ⟨-, hd⟩ | ⟨-, _, _, -, hd⟩ | ⟨hr, hsel, -⟩ := cycleWord_cases w
  · exact ⟨_, hd⟩
  · exact ⟨_, hd⟩
  · rw [CycleWord.wellFormed, hr, hsel] at h
    exact absurd h (by decide)

/-! #### Rows of the opcode table and the cycle's operations (R72, R73) -/

theorem reset_selects_iff (w : CycleWord) : (opcodeRow .reset).selects w = true ↔ w.inp.getLsbD 2 = true := by
  show ((w.inp.setWidth 4 &&& 0x4#4) == 0x4#4) = true ↔ w.inp.getLsbD 2 = true
  generalize w.inp = x
  revert x
  decide

theorem selects_iff_of_ne_reset {i : Instr} (hi : i ≠ .reset) (w : CycleWord) :
    (opcodeRow i).selects w = true ↔ w.inp.getLsbD 2 = false ∧ w.sel &&& (opcodeRow i).mask = (opcodeRow i).bits := by
  cases i with
  | reset => exact absurd rfl hi
  | _ => simp [OpcodeRow.selects, opcodeRow]

/-- R73: RESET, SYNC and EDGE have no row of format S. -/
theorem ne_of_mem_sequencerOps {i : Instr} (h : i ∈ sequencerOps) : i ≠ .reset ∧ i ≠ .sync ∧ i ≠ .edge := by
  revert h
  cases i <;> decide

/-- R73: the rows of SYNC and EDGE examine no bit. -/
theorem mem_alwaysOps_or_sequencerOps {i : Instr} (hi : i ≠ .reset) :
    (i ∈ alwaysOps ∧ i ∉ sequencerOps ∧ ∀ sel : BitVec 4, sel &&& (opcodeRow i).mask = (opcodeRow i).bits) ∨
      (i ∉ alwaysOps ∧ i ∈ sequencerOps) := by
  cases i with
  | reset => exact absurd rfl hi
  | sync | edge => exact .inl ⟨by decide, by decide, by decide⟩
  | _ => exact .inr ⟨by decide, by decide⟩

/-- R72, R73: where words decode, the cycle's operations are the ones whose rows select them. -/
theorem mem_ops_iff_selects {w : CycleWord} {ops : List Instr} (h : decode w = .ok ops) (i : Instr) :
    i ∈ ops ↔ (opcodeRow i).selects w = true := by
  obtain ⟨hr, hd⟩ | ⟨hr, ph, gs, hsel, hd⟩ | ⟨-, -, hd⟩ := cycleWord_cases w
  · obtain rfl : [.reset] = ops := Except.ok.inj (hd.symm.trans h)
    obtain rfl | hi := eq_or_ne i .reset
    · simp [reset_selects_iff, hr]
    · simp [selects_iff_of_ne_reset hi, hr, hi]
  · obtain rfl : [.sync, .edge, sequencerOp ph gs] = ops := Except.ok.inj (hd.symm.trans h)
    obtain rfl | hi := eq_or_ne i .reset
    · refine iff_of_false (by simp [(sequencerOp_ne_reset ph gs).symm]) ?_
      rw [reset_selects_iff, hr]
      decide
    · rw [selects_iff_of_ne_reset hi, hsel, and_iff_right hr,
        show [.sync, .edge, sequencerOp ph gs] = alwaysOps ++ [sequencerOp ph gs] from rfl, List.mem_append,
        List.mem_singleton]
      obtain ⟨halways, -, hall⟩ | ⟨hno, hmem⟩ := mem_alwaysOps_or_sequencerOps hi
      · exact iff_of_true (.inl halways) (hall _)
      · rw [selWord_matches_row_iff ph gs hmem, or_iff_right hno]
  · exact absurd (hd.symm.trans h) (by simp)

/-! #### Encoding -/

/-- A row laid over a word changes nothing exactly when the word has the row's bits. -/
theorem overlay_eq_self_iff (i : Instr) (x : BitVec 4) :
    (opcodeRow i).overlay x = x ↔ x &&& (opcodeRow i).mask = (opcodeRow i).bits := by
  revert x
  cases i <;> decide

theorem encode_of_ne_reset {i : Instr} (hi : i ≠ .reset) (w : CycleWord) :
    encode i w = { inp := w.inp &&& 0b011#3, sel := (opcodeRow i).overlay w.sel } := by
  cases i with
  | reset => exact absurd rfl hi
  | _ => rfl

/-- Words are an encoding of an operation exactly when the operation's row selects it on them. -/
theorem encode_eq_self_iff_selects (i : Instr) (w : CycleWord) :
    encode i w = w ↔ (opcodeRow i).selects w = true := by
  obtain ⟨inp, sel⟩ := w
  obtain rfl | hi := eq_or_ne i .reset
  · have hpin : ((opcodeRow .reset).overlay (inp.setWidth 4)).setWidth 3 = inp ↔ inp.getLsbD 2 = true := by
      revert inp
      decide
    rw [reset_selects_iff, ← hpin]
    exact ⟨fun h => congrArg CycleWord.inp h, fun h => congrArg (CycleWord.mk · sel) h⟩
  · have hpin : inp &&& 0b011#3 = inp ↔ inp.getLsbD 2 = false := by
      revert inp
      decide
    rw [encode_of_ne_reset hi, selects_iff_of_ne_reset hi, CycleWord.mk.injEq, hpin, overlay_eq_self_iff]

/-- The encoding of an operation over any words meets the operation's own row. -/
theorem selects_encode (i : Instr) (w : CycleWord) : (opcodeRow i).selects (encode i w) = true :=
  match i with
  | .reset => Laws.RowMatches.reset w
  | .sync => Laws.RowMatches.sync w
  | .edge => Laws.RowMatches.edge w
  | .poll => Laws.RowMatches.poll w
  | .confirm => Laws.RowMatches.confirm w
  | .pressCut => Laws.RowMatches.pressCut w
  | .pressRestart => Laws.RowMatches.pressRestart w
  | .renderP => Laws.RowMatches.renderP w
  | .shiftRot => Laws.RowMatches.shiftRot w
  | .shiftHold => Laws.RowMatches.shiftHold w
  | .renderT => Laws.RowMatches.renderT w
  | .wait => Laws.RowMatches.wait w

/-! #### The statements on the decoder -/

/-- Settles O1: both clauses through the opcode table, by `mem_ops_iff_selects`, `selects_encode` and
`encode_eq_self_iff_selects`. -/
theorem decodeAndEncodeAgree : Obligations.DecodeAndEncodeAgree := by
  refine ⟨fun i w _ hwf => ?_, fun i w ops hd => ?_⟩
  · obtain ⟨ops, hd⟩ := decode_of_wellFormed hwf
    exact ⟨ops, hd, (mem_ops_iff_selects hd i).2 (selects_encode i w)⟩
  · rw [mem_ops_iff_selects hd, encode_eq_self_iff_selects]

/-- Settles O3: the three cases of `cycleWord_cases`. -/
theorem operationsOfACycle : Obligations.OperationsOfACycle := by
  refine fun w => ⟨decode_of_rst, fun hr hsel => ?_, fun hr hsel => ?_⟩
  · obtain ⟨ph, gs, hword⟩ | hres := selWord_or_reserved w.sel
    · exact ⟨_, decode_of_selWord hr hword, ne_of_mem_sequencerOps (sequencerOp_mem_sequencerOps ph gs)⟩
    · rw [(selWellFormed_eq_false_iff _).2 hres] at hsel
      exact absurd hsel (by decide)
  · exact decode_of_reserved hr ((selWellFormed_eq_false_iff _).1 hsel)

/-- Settles O4: each selection word is the word of a phase and a Game State. -/
theorem writtenWordsDecode : Obligations.WrittenWordsDecode :=
  ⟨decodeSel_selWord .poll .inGame, decodeSel_selWord .confirm .ended, decodeSel_selWord .press .inGame,
    decodeSel_selWord .press .ended, decodeSel_selWord .renderP .ended, decodeSel_selWord .shift .inGame,
    decodeSel_selWord .shift .ended, decodeSel_selWord .renderT .inGame, decodeSel_selWord .wait .ended, by decide,
    by decide⟩

end Sys2Proof

/-! ### One cycle forwards (42_shift_sequencer.md R140)

`step_mainCase` says what a cycle that was made can have done; here is the converse: the branch whose conditions hold is the
one the cycle takes. -/

namespace Sys2Proof.Machine

theorem exec_confirm_of_count {s : State} (h : s.cnt ≠ 0#32) : exec .confirm s = .next (s.setCnt (s.cnt - 1#32)) := by
  simp [exec, execConfirm, h]

theorem exec_confirm_of_zero {s : State} (h : s.cnt = 0#32) :
    exec .confirm s = .next ((s.setPf false).setPh (if s.sy2 then .shift else .press)) := by
  simp [exec, execConfirm, h]

theorem exec_wait_of_count {s : State} (h : s.cnt ≠ 0#32) : exec .wait s = .next (s.setCnt (s.cnt - 1#32)) := by
  simp [exec, execWait, h]

theorem exec_wait_of_zero {s : State} (h : s.cnt = 0#32) : exec .wait s = .next (s.setPh .poll) := by
  simp [exec, execWait, h]

/-- The branch of the main loop whose conditions hold is what the sequencer operation does. -/
theorem MainCase.exec_eq {s m : State} (h : MainCase s m) : exec (sequencerOp s.ph s.gs) s = .next m := by
  cases h with
  | pollStart hp hf => rw [hp]; exact exec_poll_of_pending hf
  | pollIdle hp hf => rw [hp]; exact exec_poll_of_idle hf
  | confirmCount hp hc => rw [hp]; exact exec_confirm_of_count hc
  | confirmPress hp hc hy | confirmNoise hp hc hy => rw [hp]; exact (exec_confirm_of_zero hc).trans (by simp [hy])
  | cutEnd hp hg he =>
    obtain ⟨-, h⟩ | ⟨⟨hs, ha⟩, -⟩ := pressCutWith_cases Config.values s
    · rw [hp, hg, ← h]; exact exec_pressCut s
    · exact absurd he (not_or.2 ⟨hs, ha⟩)
  | cutDescend hp hg hs ha =>
    obtain ⟨he, -⟩ | ⟨-, h⟩ := pressCutWith_cases Config.values s
    · exact absurd he (not_or.2 ⟨hs, ha⟩)
    · rw [hp, hg, ← h]; exact exec_pressCut s
  | restart hp hg => rw [hp, hg]; exact exec_pressRestart s
  | stallP hp hr => rw [hp]; exact (exec_renderP s).trans (by rw [State.renderStep_of_stall _ hr])
  | stallT hp hr => rw [hp]; exact (exec_renderT s).trans (by rw [State.renderStep_of_stall _ hr])
  | writeP hp hr hi => rw [hp]; exact (exec_renderP s).trans (by rw [State.renderStep_of_write _ hr hi]; rfl)
  | writeT hp hr hi => rw [hp]; exact (exec_renderT s).trans (by rw [State.renderStep_of_write _ hr hi]; rfl)
  | lastP hp hr hi => rw [hp]; exact (exec_renderP s).trans (by rw [State.renderStep_of_last _ hr hi]; rfl)
  | lastT hp hr hi => rw [hp]; exact (exec_renderT s).trans (by rw [State.renderStep_of_last _ hr hi]; rfl)
  | rotate hp hg => rw [hp, hg]; exact exec_shiftRot s
  | hold hp hg => rw [hp, hg]; exact exec_shiftHold s
  | waitCount hp hc => rw [hp]; exact exec_wait_of_count hc
  | waitExit hp hc => rw [hp]; exact exec_wait_of_zero hc

/-- R140: the cycle takes the branch whose conditions hold. -/
theorem step_of_mainCase {s m : State} (hr : s.input.rst = false) (h : MainCase s m) :
    step s = .next (s.afterCycle m) := by
  obtain ⟨hstim, hcycle⟩ := exec_env _ _ _ h.exec_eq
  rw [step_of_op s m hr h.exec_eq, hstim, hcycle]
  rfl

/-- A cycle that was made took the branch whose conditions hold. -/
theorem eq_afterCycle_of_step {s t m : State} (ht : step s = .next t) (hr : s.input.rst = false) (h : MainCase s m) :
    t = s.afterCycle m :=
  Host.Outcome.next.inj (ht.symm.trans (step_of_mainCase hr h))

/-- R162: before row 7 the next row's index does not wrap. -/
theorem ri_succ_val {s : State} (h : s.ri ≠ 7) : (s.ri + 1).val = s.ri.val + 1 :=
  Fin.val_add_one_of_lt (Fin.lt_last_iff_ne_last.2 h)

theorem step_of_rst {s : State} (hr : s.input.rst = true) : step s = .next s.afterReset := step_of_reset s hr

/-- R14, R180: every cycle goes on. -/
theorem step_next (s : State) : ∃ t, step s = .next t := by
  cases hr : s.input.rst with
  | true => exact ⟨_, step_of_rst hr⟩
  | false =>
    obtain ⟨m, -, hs⟩ := step_afterCycle s hr
    exact ⟨_, hs⟩

end Sys2Proof.Machine

/-! ### The game over a cycle (41_game_fsm.md R110, 10_state.md R36 to R40)

What a cycle can make of the rows, `AR`, `GS` and `SPD`: nothing, one of a press's three outcomes (the last of which is also
what a reset makes of them), or one rotation. The invariants of the game are case analyses over `GameStep`. -/

namespace Sys2Proof.Machine

/-! #### What a cycle makes of the game -/

/-- The five things a cycle can make of the game's registers. -/
inductive GameStep (s t : State) : Prop where
  | kept (hrow : ∀ r, t.row r = s.row r) (har : t.ar = s.ar) (hgs : t.gs = s.gs) (hspd : t.spd = s.spd)
  | cutEnds (hgame : s.gs = .inGame) (hend : s.survivors = 0x00#8 ∨ s.ar = 0) (hcut : t.row s.ar = s.survivors)
      (hrow : ∀ r, r ≠ s.ar → t.row r = s.row r) (har : t.ar = s.ar) (hgs : t.gs = .ended) (hspd : t.spd = s.spd)
  | descends (hgame : s.gs = .inGame) (hsurv : s.survivors ≠ 0x00#8) (hne : s.ar ≠ 0) (hcut : t.row s.ar = s.survivors)
      (hbar : t.row (rowAbove s.ar) = spawn (popcount s.survivors))
      (hrow : ∀ r, r ≠ s.ar → r ≠ rowAbove s.ar → t.row r = s.row r) (har : t.ar = rowAbove s.ar)
      (hgs : t.gs = .inGame) (hspd : t.spd = s.spd + speedIncrement Config.values)
  | starts (hrow : ∀ r, t.row r = if r = 7 then seed else 0x00#8) (har : t.ar = 7) (hgs : t.gs = .inGame)
      (hspd : t.spd = 0#16)
  | rotates (hgame : s.gs = .inGame) (hrot : t.row s.ar = rol8 (s.row s.ar))
      (hrow : ∀ r, r ≠ s.ar → t.row r = s.row r) (har : t.ar = s.ar) (hgs : t.gs = .inGame) (hspd : t.spd = s.spd)

theorem MainCase.gameStep {s m : State} (h : MainCase s m) : GameStep s (s.afterCycle m) := by
  cases h with
  | cutEnd _ hg he => exact .cutEnds hg he (by simp) (by simp +contextual [State.setRow_row_of_ne]) rfl rfl rfl
  | cutDescend _ hg hs ha =>
    refine .descends hg hs ha ?_ (by simp) (by simp +contextual [State.setRow_row_of_ne]) rfl hg rfl
    simp [State.setRow_row_of_ne, (rowAbove_ne s.ar ha).symm]
  | restart => exact .starts (by simp [State.initGame_row]) rfl rfl rfl
  | rotate _ hg => exact .rotates hg (by simp) (by simp +contextual [State.setRow_row_of_ne]) rfl hg rfl
  | _ => exact .kept (by simp) (by simp) (by simp) (by simp)

/-- R20, R122: reset and `init_game` lay the same frame. -/
theorem State.reset_row (r : Idx) : State.reset.row r = if r = 7 then seed else 0x00#8 := by
  revert r
  decide

theorem step_gameStep {s t : State} (h : step s = .next t) : GameStep s t := by
  obtain ⟨-, rfl⟩ | ⟨-, m, hm, rfl⟩ := step_mainCase s t h
  · exact .starts State.reset_row rfl rfl rfl
  · exact hm.gameStep

/-! #### Rows that are runs (R38, R111, R115) -/

theorem narrow_oneRun {p : Byte} (hp : p ≠ 0x00#8) : oneRun (narrow p) := by
  obtain ⟨r, hr⟩ := longestRun_of_ne_zero hp
  obtain ⟨⟨hle, -⟩, -⟩ := longestRun_spec hr
  exact ⟨r.lo, r.hi, hle, narrow_of_longestRun hr⟩

theorem colmask_ne_zero {lo hi : Idx} (h : lo ≤ hi) : colmask lo hi ≠ 0x00#8 :=
  (ne_zero_iff_lit _).2 ⟨lo, (cell_colmask h lo).2 ⟨le_refl _, h⟩⟩

theorem narrow_ne_zero {p : Byte} (hp : p ≠ 0x00#8) : narrow p ≠ 0x00#8 := by
  obtain ⟨lo, hi, hle, h⟩ := narrow_oneRun hp
  rw [h]
  exact colmask_ne_zero hle

/-- Two runs that meet have one run in common. -/
theorem oneRun_and {p q : Byte} (hp : oneRun p) (hq : oneRun q) (hne : p &&& q ≠ 0x00#8) : oneRun (p &&& q) := by
  obtain ⟨lo, hi, hle, rfl⟩ := hp
  obtain ⟨lo', hi', hle', rfl⟩ := hq
  obtain ⟨c, hc⟩ := (ne_zero_iff_lit _).1 hne
  simp only [cell_and, Bool.and_eq_true, cell_colmask hle, cell_colmask hle'] at hc
  have hmeet : max lo lo' ≤ min hi hi' :=
    (max_le hc.1.1 hc.2.1).trans (le_min hc.1.2 hc.2.2)
  refine ⟨max lo lo', min hi hi', hmeet, (eq_iff_cells _ _).2 fun d => Bool.eq_iff_iff.2 ?_⟩
  rw [cell_and, Bool.and_eq_true, cell_colmask hle, cell_colmask hle', cell_colmask hmeet, max_le_iff, le_min_iff]
  tauto

/-- R115: what survives on a support that is one run is one run. -/
theorem survivors_oneRun {s : State} (hsupport : oneRun (s.support s.ar)) (hne : s.survivors ≠ 0x00#8) :
    oneRun s.survivors := by
  refine oneRun_and (narrow_oneRun fun hzero => hne ?_) hsupport hne
  rw [State.survivors, hzero, narrow_zero, BitVec.zero_and]

/-- R114: the Support Row of a standing tower is one run; the floor is all lit. -/
theorem support_oneRun {s : State} (h : ∀ r : Idx, s.ar < r → oneRun (s.row r)) : oneRun (s.support s.ar) := by
  obtain har | har := eq_or_ne s.ar 7
  · rw [har, State.support_seven]
    exact ⟨0, 7, by decide, by decide⟩
  · have hlt : s.ar.val < 7 := Fin.val_lt_last har
    rw [s.support_of_lt _ hlt]
    exact h _ (Nat.lt_succ_self _)

theorem support_eq_row {s : State} {r : Idx} (hr : r.val = s.ar.val + 1) : s.support s.ar = s.row r := by
  rw [s.support_of_lt _ (by omega)]
  exact congrArg s.row (Fin.ext hr.symm)

theorem survivors_within {s : State} {r : Idx} (hr : r.val = s.ar.val + 1) : within s.survivors (s.row r) := by
  rw [← support_eq_row hr]
  exact within_and_right _ _

theorem rowAbove_lt_iff {a : Idx} (h : a ≠ 0) (r : Idx) : rowAbove a < r ↔ r = a ∨ a < r := by
  have := rowAbove_val_succ h
  rw [Fin.lt_def, Fin.lt_def, Fin.ext_iff]
  omega

/-! #### The tower (R38) -/

/-- The game's reset state and every restart: nothing is below row 7. -/
theorem towerStands_of_starts {t : State} (har : t.ar = 7) (hgs : t.gs = .inGame) : towerStands t := by
  have hnone (r : Idx) : ¬ t.ar < r := by rw [har]; exact not_lt.2 (Fin.le_last r)
  exact ⟨fun r hr => absurd hr (hnone r), fun r _ hr => absurd hr (hnone r), fun hend => by simp [hgs] at hend⟩

/-- Nothing below the active row changes, and the game goes on. -/
theorem towerStands_of_below_kept {s t : State} (h : towerStands s) (har : t.ar = s.ar)
    (hrow : ∀ r, r ≠ s.ar → t.row r = s.row r)
    (hend : t.gs = .ended → t.row s.ar = 0x00#8 ∨ (s.ar = 0 ∧ oneRun (t.row 0) ∧ within (t.row 0) (t.row 1))) :
    towerStands t := by
  obtain ⟨hruns, hwithin, -⟩ := h
  have hbelow (r : Idx) (hr : s.ar < r) : t.row r = s.row r := hrow r (ne_of_gt hr)
  refine ⟨fun r hr => ?_, fun r r' hr hr' => ?_, by rwa [har]⟩
  · rw [har] at hr
    rw [hbelow r hr]
    exact hruns r hr
  · rw [har] at hr
    rw [hbelow r hr, hbelow r' (hr.trans (Fin.lt_def.2 (by omega)))]
    exact hwithin r r' hr hr'

/-- R119: a cut in row 0 with survivors leaves a run within row 1. -/
theorem cut_in_row_zero {s t : State} (h : towerStands s) (har : s.ar = 0) (hne : s.survivors ≠ 0x00#8)
    (hcut : t.row s.ar = s.survivors) (hrow : ∀ r, r ≠ s.ar → t.row r = s.row r) :
    oneRun (t.row 0) ∧ within (t.row 0) (t.row 1) := by
  rw [hrow 1 (by rw [har]; decide), ← har, hcut]
  exact ⟨survivors_oneRun (support_oneRun h.1) hne, survivors_within (by rw [har]; rfl)⟩

/-- R120: after a descent the surviving row is the top of the tower. -/
theorem towerStands_of_descent {s t : State} (h : towerStands s) (hne : s.ar ≠ 0) (hsurv : s.survivors ≠ 0x00#8)
    (hcut : t.row s.ar = s.survivors) (hrow : ∀ r, r ≠ s.ar → r ≠ rowAbove s.ar → t.row r = s.row r)
    (har : t.ar = rowAbove s.ar) (hgs : t.gs = .inGame) : towerStands t := by
  obtain ⟨hruns, hwithin, -⟩ := h
  have hbelow (r : Idx) (hr : s.ar < r) : t.row r = s.row r :=
    hrow r (ne_of_gt hr) (ne_of_gt ((rowAbove_lt_iff hne r).2 (.inr hr)))
  refine ⟨fun r hr => ?_, fun r r' hr hr' => ?_, fun hend => by simp [hgs] at hend⟩
  · rw [har, rowAbove_lt_iff hne] at hr
    obtain rfl | hr := hr
    · rw [hcut]
      exact survivors_oneRun (support_oneRun hruns) hsurv
    · rw [hbelow r hr]
      exact hruns r hr
  · rw [har, rowAbove_lt_iff hne] at hr
    obtain rfl | hr := hr
    · rw [hcut, hbelow r' (Fin.lt_def.2 (by omega))]
      exact survivors_within hr'
    · rw [hbelow r hr, hbelow r' (hr.trans (Fin.lt_def.2 (by omega)))]
      exact hwithin r r' hr hr'

theorem towerStands_reset : towerStands State.reset := towerStands_of_starts rfl rfl

theorem towerStands_step {s t : State} (h : towerStands s) (ht : step s = .next t) : towerStands t := by
  cases step_gameStep ht with
  | kept hrow har hgs =>
    refine towerStands_of_below_kept h har (fun r _ => hrow r) fun hend => ?_
    rw [hrow, hrow, hrow]
    exact h.2.2 (hgs.symm.trans hend)
  | cutEnds _ hend hcut hrow har =>
    refine towerStands_of_below_kept h har hrow fun _ => ?_
    by_cases hsurv : s.survivors = 0x00#8
    · exact .inl (hcut.trans hsurv)
    · have har0 := hend.resolve_left hsurv
      exact .inr ⟨har0, cut_in_row_zero h har0 hsurv hcut hrow⟩
  | descends _ hsurv hne hcut _ hrow har hgs => exact towerStands_of_descent h hne hsurv hcut hrow har hgs
  | starts _ har hgs => exact towerStands_of_starts har hgs
  | rotates _ _ hrow har hgs => exact towerStands_of_below_kept h har hrow fun hend => by simp [hgs] at hend

/-- Settles O52: the five things a cycle can make of the game. -/
theorem towerKeepsStanding : Obligations.TowerKeepsStanding :=
  ⟨towerStands_reset, fun _ _ => towerStands_step⟩

/-! #### The rows above, the active row and the Speed (R36, R37, R39, R40) -/

theorem rowsAboveClear_of_starts {t : State} (hrow : ∀ r, t.row r = if r = 7 then seed else 0x00#8) (har : t.ar = 7) :
    rowsAboveClear t := by
  intro r hr
  rw [har] at hr
  rw [hrow, if_neg hr.ne]

theorem rowsAboveClear_step {s t : State} (h : rowsAboveClear s) (ht : step s = .next t) : rowsAboveClear t := by
  intro r hr
  cases step_gameStep ht with
  | kept hrow har =>
    rw [hrow]
    exact h r (har ▸ hr)
  | cutEnds _ _ _ hrow har | rotates _ _ hrow har =>
    rw [har] at hr
    rw [hrow r hr.ne]
    exact h r hr
  | descends _ _ hne _ _ hrow har =>
    rw [har] at hr
    have hlt : r < s.ar := hr.trans ((rowAbove_lt_iff hne _).2 (.inl rfl))
    rw [hrow r hlt.ne hr.ne]
    exact h r hlt
  | starts hrow har => exact rowsAboveClear_of_starts hrow har r hr

/-- Settles O50: the reset frame, and the five things a cycle can make of the game. -/
theorem rowsAboveStayClear : Obligations.RowsAboveStayClear :=
  ⟨rowsAboveClear_of_starts State.reset_row rfl, fun _ _ => rowsAboveClear_step⟩

theorem popcount_pos {p : Byte} (hp : p ≠ 0x00#8) : 1 ≤ popcount p := by
  obtain ⟨c, hc⟩ := (ne_zero_iff_lit p).1 hp
  exact List.countP_pos_iff.2 ⟨c, mem_columns c, hc⟩

theorem popcount_le (p : Byte) : popcount p ≤ 8 := List.countP_le_length

/-- R117: the spawned bar has the width it was asked for. -/
theorem popcount_spawn_popcount {p : Byte} (hp : p ≠ 0x00#8) : popcount (spawn (popcount p)) = popcount p := by
  obtain ⟨-, hspawn⟩ := spawnIsRightAligned
  obtain ⟨-, -, hwidth, -⟩ := hspawn _ (popcount_pos hp) (popcount_le p)
  exact hwidth

theorem popcount_zero : popcount 0x00#8 = 0 := by decide

theorem spawn_popcount_ne_zero {p : Byte} (hp : p ≠ 0x00#8) : spawn (popcount p) ≠ 0x00#8 := by
  intro hzero
  have hpos := popcount_pos hp
  rw [← popcount_spawn_popcount hp, hzero, popcount_zero] at hpos
  omega

/-- R143: the column whose cell the rotation moves to column `c`. -/
def turnedColumn (c : Idx) : Idx := ⟨(c.val + 1) % 8, by omega⟩

/-- R143, R145: the rotation turns the columns round and loses none. -/
theorem popcount_rol8 (p : Byte) : popcount (rol8 p) = popcount p := by
  have hturn : (columns.map turnedColumn).Perm columns := by decide
  calc popcount (rol8 p)
      = columns.countP (cell p ∘ turnedColumn) := List.countP_congr fun c _ => by rw [cell_rol8]; rfl
    _ = (columns.map turnedColumn).countP (cell p) := List.countP_map.symm
    _ = popcount p := hturn.countP_eq _

theorem rol8_ne_zero {p : Byte} (hp : p ≠ 0x00#8) : rol8 p ≠ 0x00#8 := by
  intro hzero
  have hpos := popcount_pos hp
  rw [← popcount_rol8, hzero, popcount_zero] at hpos
  omega

theorem activeRowLit_of_starts {t : State} (hrow : ∀ r, t.row r = if r = 7 then seed else 0x00#8) (har : t.ar = 7) :
    activeRowLit t := by
  intro _
  rw [hrow, if_pos har]
  decide

theorem activeRowLit_step {s t : State} (h : activeRowLit s) (ht : step s = .next t) : activeRowLit t := by
  cases step_gameStep ht with
  | kept hrow har hgs =>
    rw [activeRowLit, hgs, har, hrow]
    exact h
  | cutEnds _ _ _ _ _ hgs => exact fun hgame => by simp [hgs] at hgame
  | descends _ hsurv _ _ hbar _ har =>
    intro _
    rw [har, hbar]
    exact spawn_popcount_ne_zero hsurv
  | starts hrow har => exact activeRowLit_of_starts hrow har
  | rotates hgame hrot _ har =>
    intro _
    rw [har, hrot]
    exact rol8_ne_zero (h hgame)

/-- Settles O51: the active row is the seed, the bar of a non-empty cut, or the rotation of a lit row. -/
theorem activeRowStaysLit : Obligations.ActiveRowStaysLit :=
  ⟨activeRowLit_of_starts State.reset_row rfl, fun _ _ => activeRowLit_step⟩

theorem barWidth_of_starts {t : State} (hrow : ∀ r, t.row r = if r = 7 then seed else 0x00#8) (har : t.ar = 7) :
    barWidth t := by
  refine ⟨fun _ r hr => ?_, fun _ => ?_⟩
  · rw [har] at hr
    exact absurd hr (by have := r.isLt; simp; omega)
  · rw [hrow]
    decide

/-- A cut in row 7 stands on the floor, so a lit row 7 leaves survivors. -/
theorem survivors_ne_zero_in_row_seven {s : State} (har : s.ar = 7) (hlit : s.row 7 ≠ 0x00#8) :
    s.survivors ≠ 0x00#8 := by
  rw [State.survivors, har, State.support_seven, show (0xFF#8 : Byte) = BitVec.allOnes 8 from rfl, BitVec.and_allOnes]
  exact narrow_ne_zero hlit

theorem barWidth_step {s t : State} (h : barWidth s) (ht : step s = .next t) : barWidth t := by
  obtain ⟨hgame, hseven⟩ := h
  cases step_gameStep ht with
  | kept hrow har hgs =>
    simp only [barWidth, hgs, har, hrow]
    exact ⟨hgame, hseven⟩
  | cutEnds _ hend _ _ har hgs =>
    refine ⟨fun hg => by simp [hgs] at hg, fun h7 => ?_⟩
    rw [har] at h7
    have hlit : s.row 7 ≠ 0x00#8 := fun hzero => by
      have := hseven h7
      rw [hzero, popcount_zero] at this
      omega
    exact absurd hend (not_or.2 ⟨survivors_ne_zero_in_row_seven h7 hlit, by rw [h7]; decide⟩)
  | descends _ hsurv hne hcut hbar _ har =>
    have habove := rowAbove_val_succ hne
    refine ⟨fun _ r hr => ?_, fun h7 => ?_⟩
    · rw [har] at hr
      obtain rfl : r = s.ar := Fin.ext (hr.trans habove)
      rw [har, hbar, hcut, popcount_spawn_popcount hsurv]
    · rw [har] at h7
      rw [h7] at habove
      exact absurd habove (by have := s.ar.isLt; simp; omega)
  | starts hrow har => exact barWidth_of_starts hrow har
  | rotates hg hrot hrow har =>
    refine ⟨fun _ r hr => ?_, fun h7 => ?_⟩
    · rw [har] at hr
      rw [har, hrot, popcount_rol8, hrow r fun heq => by rw [heq] at hr; omega]
      exact hgame hg r hr
    · rw [har] at h7
      rw [← h7, hrot, popcount_rol8, h7]
      exact hseven h7

/-- Settles O53: the new bar has the width of what survived, and the rotation keeps the width. -/
theorem barKeepsItsWidth : Obligations.BarKeepsItsWidth :=
  ⟨barWidth_of_starts State.reset_row rfl, fun _ _ => barWidth_step⟩

theorem speedLaw_of_starts {t : State} (har : t.ar = 7) (hspd : t.spd = 0#16) : speedLaw t := by
  rw [speedLaw, har, hspd]
  rfl

theorem speedLaw_step {s t : State} (h : speedLaw s) (ht : step s = .next t) : speedLaw t := by
  cases step_gameStep ht with
  | kept _ har _ hspd | cutEnds _ _ _ _ har _ hspd | rotates _ _ _ har _ hspd =>
    rw [speedLaw, hspd, har]
    exact h
  | descends _ _ hne _ _ _ har _ hspd =>
    obtain ⟨-, -, -, -, -, hfit, -⟩ := values_spec
    have habove := rowAbove_val_succ hne
    have hle : Config.values.speedInc * (7 - (rowAbove s.ar).val) ≤ 7 * Config.values.speedInc := by
      rw [Nat.mul_comm]
      exact Nat.mul_le_mul_right _ (Nat.sub_le _ _)
    have hnext : Config.values.speedInc * (7 - s.ar.val) + Config.values.speedInc =
        Config.values.speedInc * (7 - (rowAbove s.ar).val) := by
      rw [← Nat.mul_succ]
      congr 1
      omega
    rw [speedLaw] at h
    rw [speedLaw, hspd, har, speedIncrement, BitVec.toNat_add, BitVec.toNat_ofNat, h]
    omega
  | starts _ har _ hspd => exact speedLaw_of_starts har hspd

/-- Settles O54: a descent steps both `AR` and `SPD`, and seven descents stay below `2^16` by R9. -/
theorem speedFollowsTheRow : Obligations.SpeedFollowsTheRow :=
  ⟨speedLaw_of_starts rfl rfl, fun _ _ => speedLaw_step⟩

end Sys2Proof.Machine

/-! ### The counters and the transport over a cycle (10_state.md R41, 20_memory.md R50, R60)

The counters are followed through the branches of the main loop. The transport changes by the accepted write of the cycle and
by nothing else, so its invariant and the statements on it are about that one write. -/

namespace Sys2Proof.Machine

/-! #### The counters (R41) -/

/-- R78: the reserved code is no phase's. -/
theorem phase_code_ne_seven (ph : Phase) : ph.code ≠ 7#3 := by
  cases ph <;> decide

theorem toNat_sub_one {c : Count} (h : c ≠ 0#32) : (c - 1#32).toNat = c.toNat - 1 := by
  bv_omega

theorem countersLaw_reset : countersLaw State.reset := by
  simp [countersLaw, State.reset]

/-- R98: an edge flag that is set stays set but in the clearing cycle. -/
theorem nextPf_of_pf {s : State} (hc : s.clearNow = false) (hpf : s.pf = true) : s.nextPf = true := by
  rw [s.nextPf_of_not_clear hc, hpf, Bool.or_true]

theorem countersLaw_mainCase {s m : State} (h : countersLaw s) (hm : MainCase s m) : countersLaw (s.afterCycle m) := by
  obtain ⟨hcnt, hri, hconfirm, hwait, hpf⟩ := h
  cases hm with
  | pollStart hp hf =>
    have hclear : s.clearNow = false := State.clearNow_of_ph_ne (by simp [hp])
    simp [countersLaw, hri, hp, settleCycles_toNat, nextPf_of_pf hclear hf]
  | confirmCount hp hc =>
    have hclear : s.clearNow = false := by simp [State.clearNow, hc]
    have hle := hconfirm hp
    have hri0 : s.ri = 0 := hri (by simp [hp]) (by simp [hp])
    simp [countersLaw, hp, hri0, toNat_sub_one hc, nextPf_of_pf hclear (hpf hp)]
    omega
  | waitCount hp hc =>
    have hle := hwait hp
    have hri0 : s.ri = 0 := hri (by simp [hp]) (by simp [hp])
    simp [countersLaw, hp, hri0, toNat_sub_one hc]
    omega
  | lastT hp => simp [countersLaw, intervalCycles_toNat]
  | confirmPress hp hc | confirmNoise hp hc | waitExit hp hc =>
    have hri0 : s.ri = 0 := hri (by simp [hp]) (by simp [hp])
    simp [countersLaw, hc, hri0]
  | pollIdle hp =>
    have hri0 : s.ri = 0 := hri (by simp [hp]) (by simp [hp])
    have hcnt0 : s.cnt = 0#32 := hcnt (by simp [hp]) (by simp [hp])
    simp [countersLaw, hcnt0, hri0]
  | _ hp =>
    have hcnt0 : s.cnt = 0#32 := hcnt (by simp [hp]) (by simp [hp])
    simp [countersLaw, hp, hcnt0]

theorem countersLaw_step {s t : State} (h : countersLaw s) (ht : step s = .next t) : countersLaw t := by
  obtain ⟨-, rfl⟩ | ⟨-, m, hm, rfl⟩ := step_mainCase s t ht
  · exact countersLaw_reset
  · exact countersLaw_mainCase h hm

/-- Settles O55: the branches of the main loop, the two loads by `settleCycles_toNat` and `intervalCycles_toNat`. -/
theorem countersStayInTheirPhases : Obligations.CountersStayInTheirPhases :=
  ⟨fun s => phase_code_ne_seven s.ph, countersLaw_reset, fun _ _ => countersLaw_step⟩

/-! #### The transport (R50, R60, R167) -/

theorem State.accepts_iff (s : State) :
    s.accepts = true ↔ s.input.rst = false ∧ renderPhase s ∧ s.input.rdy = true := by
  rw [State.accepts, Bool.and_eq_true, State.rendering_iff, and_assoc]

theorem MainCase.tx_eq {s m : State} (h : MainCase s m) :
    m.tx = if renderPhase s ∧ s.input.rdy = true then s.tx.write (s.ri.val + 1) (s.row s.ri) else s.tx := by
  cases h with
  | stallP hp hr | stallT hp hr => simp [hr]
  | writeP hp hr | writeT hp hr | lastP hp hr | lastT hp hr => simp [hp, hr]
  | _ hp => simp [hp]

/-- R60: in a cycle the transport takes the write on offer, if it is accepted, and nothing else; a reset leaves it (R204). -/
theorem step_tx {s t : State} (h : step s = .next t) :
    t.tx = if s.accepts then s.tx.write (s.ri.val + 1) (s.row s.ri) else s.tx := by
  simp only [State.accepts_iff]
  obtain ⟨hr, rfl⟩ | ⟨hr, m, hm, rfl⟩ := step_mainCase s t h
  · simp [hr]
  · simp [hr, hm.tx_eq]

theorem step_tx_of_accepts {s t : State} (h : step s = .next t) (ha : s.accepts = true) :
    t.tx = s.tx.write (s.ri.val + 1) (s.row s.ri) := by
  rw [step_tx h, if_pos ha]

theorem step_tx_of_not_accepts {s t : State} (h : step s = .next t) (ha : ¬ s.accepts = true) : t.tx = s.tx := by
  rw [step_tx h, if_neg ha]

theorem transportLaw_write {m : Memory} (r : Idx) (v : Byte) (hwf : m.wf = true)
    (hrows : ∀ a, m.read a ≠ none → 1 ≤ a ∧ a ≤ 8) :
    (m.write (r.val + 1) v).wf = true ∧ ∀ a, (m.write (r.val + 1) v).read a ≠ none → 1 ≤ a ∧ a ≤ 8 := by
  refine ⟨Memory.wfFrom_write m 0 _ v hwf (Nat.zero_le _) (by omega), fun a ha => ?_⟩
  obtain rfl | hne := eq_or_ne a (r.val + 1)
  · omega
  · rw [Memory.read_write_of_ne _ _ _ _ hne] at ha
    exact hrows a ha

theorem transportLaw_step {s t : State} (h : transportLaw s) (ht : step s = .next t) : transportLaw t := by
  obtain ⟨hwf, hrows⟩ := h
  rw [transportLaw, step_tx ht]
  split
  · exact transportLaw_write s.ri _ hwf hrows
  · exact ⟨hwf, hrows⟩

/-- Settles O56: an accepted write is to one of the registers 1 to 8. -/
theorem transportKeepsItsForm : Obligations.TransportKeepsItsForm := fun _ _ => transportLaw_step

/-- Settles O49: a register reads something else only after an accepted write to it. -/
theorem onlyAcceptedWritesReachTheTransport : Obligations.OnlyAcceptedWritesReachTheTransport := by
  intro s t a ht hread
  have hacc : s.accepts = true := by
    by_contra hno
    exact hread (by rw [step_tx_of_not_accepts ht hno])
  have htx := step_tx_of_accepts ht hacc
  have ha : a = s.ri.val + 1 := by
    by_contra hne
    exact hread (by rw [htx, Memory.read_write_of_ne _ _ _ _ hne])
  obtain ⟨hrst, hph, hrdy⟩ := s.accepts_iff.1 hacc
  have hrend : s.rendering = true := s.rendering_iff.2 ⟨hrst, hph⟩
  obtain ⟨hreg, hdata⟩ := State.outputs_of_rendering hrend
  rw [hreg, hdata, regNumber_toNat, ha, htx, Memory.read_write_same]
  exact ⟨hrend, hrdy, hrst, rfl, by omega, by omega, rfl⟩

/-! #### The invariants together -/

theorem transportLaw_empty : transportLaw State.reset :=
  ⟨rfl, fun _ ha => absurd rfl ha⟩

/-- R36 to R41: the frame of a reset with a transport in its form. -/
theorem reachableLaw_of_reset {s : State} (h : transportLaw s) : reachableLaw s.afterReset :=
  ⟨rowsAboveClear_of_starts State.reset_row rfl, activeRowLit_of_starts State.reset_row rfl,
    towerStands_of_starts rfl rfl, barWidth_of_starts State.reset_row rfl, speedLaw_of_starts rfl rfl,
    countersLaw_reset, h⟩

theorem reachableLaw_step (s t : State) (h : reachableLaw s) (ht : step s = .next t) : reachableLaw t := by
  obtain ⟨habove, hactive, htower, hwidth, hspeed, hcounters, htransport⟩ := h
  exact ⟨rowsAboveClear_step habove ht, activeRowLit_step hactive ht, towerStands_step htower ht,
    barWidth_step hwidth ht, speedLaw_step hspeed ht, countersLaw_step hcounters ht, transportLaw_step htransport ht⟩

/-- Settles O57: each of the invariants is kept by every step, and a reset lays a frame that has them. -/
theorem reachableLawIsKept : Obligations.ReachableLawIsKept := by
  refine ⟨fun s t n h hrun => invariant_of_runsTo reachableLaw reachableLaw_step s t n h hrun, fun s t hr h ht => ?_⟩
  obtain rfl : s.afterReset = t := Host.Outcome.next.inj ((step_of_rst hr).symm.trans ht)
  exact reachableLaw_of_reset h

/-- Settles O58: the laws of the start, with nothing listed in the transport. -/
theorem resetMeetsTheLaw : Obligations.ResetMeetsTheLaw := reachableLaw_of_reset transportLaw_empty

end Sys2Proof.Machine

/-! ### The step as a whole (42_shift_sequencer.md R140, R152, 70_reset_and_hazards.md R200)

The transition table is read off the branches of the main loop, and so are the listing of R152 and who writes the game. -/

namespace Sys2Proof.Machine

/-! #### The step and its operation -/

/-- R70, R73: the operation the words of a state decode to. -/
theorem eq_of_decodeMain_fetch {s : State} {i : Instr} (h : decodeMain s.fetch = .ok i) :
    i = if s.input.rst then .reset else sequencerOp s.ph s.gs :=
  (Except.ok.inj ((decodeMain_fetch s).symm.trans h)).symm

/-- Settles O5: RESET by `step_of_rst`, a sequencer operation by `step_of_op`, which leaves `stim` and `cycle` to the edge by
`exec_env`. -/
theorem stepRunsSelectedOperation : Obligations.StepRunsSelectedOperation := by
  intro s m i hd hm
  have hi := eq_of_decodeMain_fetch hd
  cases hr : s.input.rst with
  | true =>
    rw [hr, if_pos rfl] at hi
    subst hi
    obtain rfl : (State.reset.setTx s.tx).setEnv s.stim s.cycle = m := Host.Outcome.next.inj hm
    exact ⟨fun _ => step_of_rst hr, fun hne => absurd rfl hne⟩
  | false =>
    rw [hr, if_neg Bool.false_ne_true] at hi
    subst hi
    obtain ⟨hstim, hcycle⟩ := exec_env _ _ _ hm
    refine ⟨fun heq => absurd heq (sequencerOp_ne_reset _ _), fun _ => ?_⟩
    rw [step_of_op s m hr hm, hstim, hcycle]
    rfl

/-- Settles O6: every cycle goes on, so runs of every length do. -/
theorem everyRunGoesOn : Obligations.EveryRunGoesOn := by
  intro s n
  induction n generalizing s with
  | zero => exact ⟨s, rfl⟩
  | succ n ih =>
    obtain ⟨u, hu⟩ := step_next s
    obtain ⟨t, ht⟩ := ih u
    exact ⟨t, runsTo_succ s u t n hu ht⟩

/-! #### The listing of R152 -/

/-- R143: the model's rotation is the library's. -/
theorem rol8_eq_rotateLeft (p : Byte) : rol8 p = p.rotateLeft 1 := by
  revert p
  decide

theorem rowAbove_eq_sub_one {a : Idx} (h : a ≠ 0) : rowAbove a = a - 1 := by
  revert a
  decide

/-- R202: `init_game` lays the frame of reset. -/
theorem initGame_fb_eq_reset (s : State) : s.initGame.fb = State.reset.fb :=
  State.fb_ext _ _ fun r => by rw [State.initGame_row, State.reset_row]

/-- R152: the main-loop part of the listing, branch by branch. -/
theorem listingMain_of_mainCase {s m : State} (h : MainCase s m) :
    sameGame (listingMain Config.values s s.input.rdy) m ∧
      sameSequencer (listingMain Config.values s s.input.rdy) m := by
  simp only [sameGame, sameSequencer]
  cases h with
  | pollStart hp hf | pollIdle hp hf => simp [listingMain, hp, hf]
  | confirmCount hp hc | waitCount hp hc | waitExit hp hc => simp [listingMain, hp, hc]
  | confirmPress hp hc hy | confirmNoise hp hc hy => simp [listingMain, hp, hc, hy]
  | cutEnd hp hg he =>
    rw [State.survivors] at he
    simp [listingMain, hp, hg, he, State.survivors]
  | cutDescend hp hg hs ha =>
    rw [State.survivors] at hs
    simp [listingMain, hp, hg, hs, ha, State.survivors, ← rowAbove_eq_sub_one ha, rowAbove]
  | restart hp hg => simp [listingMain, hp, hg, initGame_fb_eq_reset, State.reset, listingInitGame]
  | stallP hp hr | stallT hp hr => simp [listingMain, hp, hr]
  | writeP hp hr hi | writeT hp hr hi | lastP hp hr hi | lastT hp hr hi => simp [listingMain, hp, hr, hi]
  | rotate hp hg => simp [listingMain, hp, hg, rol8_eq_rotateLeft]
  | hold hp hg => simp [listingMain, hp, hg]

/-- R152: the registers after a step are those of the listing. -/
theorem step_eq_listing {s t : State} (h : step s = .next t) :
    sameGame (listingStep Config.values s s.input) t ∧ sameDebouncer (listingStep Config.values s s.input) t ∧
      sameSequencer (listingStep Config.values s s.input) t := by
  obtain ⟨hr, rfl⟩ | ⟨hr, m, hm, rfl⟩ := step_mainCase s t h
  · rw [listingStep, if_pos hr]
    exact ⟨⟨rfl, rfl, rfl, rfl⟩, ⟨rfl, rfl, rfl, rfl⟩, rfl, rfl, rfl⟩
  · obtain ⟨hgame, hseq⟩ := listingMain_of_mainCase hm
    rw [listingStep, if_neg (by simp [hr])]
    exact ⟨hgame, ⟨rfl, rfl, rfl, s.nextPf_eq⟩, hseq⟩

/-- R166: the offer on the port, over registers. -/
theorem State.outputs_eq (s : State) : s.outputs =
    { pressEv := s.pressEv, wrValid := s.rendering,
      wrReg := if s.rendering then BitVec.ofNat 8 (s.ri.val + 1) else 0x00#8,
      wrData := if s.rendering then s.row s.ri else 0x00#8 } := by
  rw [State.outputs, State.rowBits_eq_row, show regNumber s.ri = BitVec.ofNat 8 (s.ri.val + 1) from
    (BitVec.ofNat_add ..).symm]

/-- Settles O7: the registers by `step_eq_listing`, the outputs by `outputs_eq`. -/
theorem stepEqualsListing : Obligations.StepEqualsListing := by
  intro s
  obtain ⟨t, ht⟩ := step_next s
  refine ⟨⟨t, ht, step_eq_listing ht⟩, ?_⟩
  rw [State.outputs_eq, State.pressEv, State.clearNow, ← Bool.and_assoc]
  rfl

/-! #### The transition table (R140) -/

/-- Settles O8: each line of the table is one branch of the main loop. -/
theorem phaseGraph : Obligations.PhaseGraph := by
  intro s hr
  obtain ⟨t, ht⟩ := step_next s
  have hto {m : State} (hm : MainCase s m) : t = s.afterCycle m := eq_afterCycle_of_step ht hr hm
  have hclear (hp : s.ph = .confirm) (hc : s.cnt = 0#32) : s.nextPf = false :=
    s.nextPf_of_clear (s.clearNow_iff.2 ⟨hp, hc⟩)
  refine ⟨t, ht, fun hp hf => ?_, fun hp hf => ?_, fun hp hc => ?_, fun hp hc hy => ?_, fun hp hc hy => ?_,
    fun hp => ?_, fun hp hrdy => ?_, fun hp hrdy hri => ?_, fun hp hrdy hri => ?_, fun hp hrdy hri => ?_,
    fun hp => ?_, fun hp hc => ?_, fun hp hc => ?_⟩
  · rw [hto (.pollStart hp hf)]
    exact ⟨rfl, settleCycles_toNat⟩
  · rw [hto (.pollIdle hp hf)]
    exact ⟨rfl, rfl⟩
  · rw [hto (.confirmCount hp hc)]
    simp [hp]
  · rw [hto (.confirmPress hp hc hy)]
    exact ⟨rfl, hclear hp hc, s.pressEv_iff.2 ⟨hr, hp, hc, hy⟩⟩
  · rw [hto (.confirmNoise hp hc hy)]
    exact ⟨rfl, hclear hp hc⟩
  · cases hg : s.gs with
    | inGame =>
      by_cases hend : s.survivors = 0x00#8 ∨ s.ar = 0
      · rw [hto (.cutEnd hp hg hend)]
        exact ⟨rfl, rfl⟩
      · obtain ⟨hsurv, hne⟩ := not_or.1 hend
        rw [hto (.cutDescend hp hg hsurv hne)]
        exact ⟨rfl, rfl⟩
    | ended =>
      rw [hto (.restart hp hg)]
      exact ⟨rfl, rfl⟩
  · obtain hp | hp := hp
    · rw [hto (.stallP hp hrdy)]
      exact ⟨rfl, rfl⟩
    · rw [hto (.stallT hp hrdy)]
      exact ⟨rfl, rfl⟩
  · have hnext := ri_succ_val hri
    obtain hp | hp := hp
    · rw [hto (.writeP hp hrdy hri)]
      simp [hnext]
    · rw [hto (.writeT hp hrdy hri)]
      simp [hnext]
  · rw [hto (.lastP hp hrdy hri)]
    exact ⟨rfl, rfl⟩
  · rw [hto (.lastT hp hrdy hri)]
    exact ⟨rfl, rfl, intervalCycles_toNat s.spd⟩
  · cases hg : s.gs with
    | inGame =>
      rw [hto (.rotate hp hg)]
      exact ⟨rfl, rfl⟩
    | ended =>
      rw [hto (.hold hp hg)]
      exact ⟨rfl, rfl⟩
  · rw [hto (.waitCount hp hc)]
    simp [hp]
  · rw [hto (.waitExit hp hc)]
    rfl

/-! #### RESET (R20, R200, R202) -/

theorem State.outputs_of_rst {s : State} (h : s.input.rst = true) :
    s.outputs = { pressEv := false, wrValid := false, wrReg := 0x00#8, wrData := 0x00#8 } := by
  have hev : s.pressEv = false := by simp [State.pressEv, h]
  have hrend : s.rendering = false := by simp [State.rendering, h]
  simp [State.outputs_eq, hev, hrend]

/-- Settles O9: the meaning of RESET, the cycle by `step_of_rst`, the gating by `outputs_of_rst`. -/
theorem resetTakesEveryRegister : Obligations.ResetTakesEveryRegister :=
  fun _ => ⟨rfl, fun hr => ⟨⟨_, rfl, step_of_rst hr⟩, State.outputs_of_rst hr⟩⟩

/-- Settles O10: the rows by `reset_row`, the registers as they stand. -/
theorem resetStateValues : Obligations.ResetStateValues :=
  ⟨fun r => by rw [State.reset_row, seed_eq], rfl, rfl, rfl, rfl, rfl, rfl, rfl, rfl, rfl, rfl⟩

/-- Settles O11: the frame of `init_game` is that of reset; the other registers as the two updates leave them. -/
theorem restartIsNotAReset : Obligations.RestartIsNotAReset :=
  fun s =>
    ⟨⟨⟨initGame_fb_eq_reset s, rfl, rfl, rfl⟩, ⟨rfl, rfl, rfl, rfl⟩, ⟨rfl, rfl, rfl⟩, fun _ => rfl, rfl, rfl⟩,
      ⟨_, rfl, ⟨(initGame_fb_eq_reset s).symm, rfl, rfl, rfl⟩, rfl, rfl, rfl, rfl, rfl, rfl, rfl⟩⟩

/-! #### Who writes the game, and what the main loop sees (R22 to R27, R104, R110, R186) -/

theorem MainCase.game_kept_of_not_press {s m : State} (h : MainCase s m) (hp : s.ph ≠ .press) :
    m.ar = s.ar ∧ m.gs = s.gs ∧ m.spd = s.spd := by
  cases h with
  | cutEnd hpress | cutDescend hpress | restart hpress => exact absurd hpress hp
  | _ => simp

theorem MainCase.fb_kept {s m : State} (h : MainCase s m) (hp : s.ph ≠ .press)
    (hshift : ¬ (s.ph = .shift ∧ s.gs = .inGame)) : m.fb = s.fb := by
  cases h with
  | cutEnd hpress | cutDescend hpress | restart hpress => exact absurd hpress hp
  | rotate hph hg => exact absurd ⟨hph, hg⟩ hshift
  | _ => rfl

theorem MainCase.rows_kept_of_shift {s m : State} (h : MainCase s m) (hp : s.ph = .shift) (r : Idx) (hr : r ≠ s.ar) :
    m.row r = s.row r := by
  cases h with
  | rotate => simp [State.setRow_row_of_ne, hr]
  | hold => rfl
  | _ hph => exact absurd (hph.symm.trans hp) (by decide)

/-- Settles O47: no other branch of the main loop writes these registers. -/
theorem onlyPressAndShiftWriteTheGame : Obligations.OnlyPressAndShiftWriteTheGame := by
  intro s t ht hr
  obtain ⟨m, hm, hs⟩ := step_afterCycle s hr
  obtain rfl : s.afterCycle m = t := Host.Outcome.next.inj (hs.symm.trans ht)
  exact ⟨hm.game_kept_of_not_press, hm.fb_kept, hm.rows_kept_of_shift⟩

/-- Settles O48: a press in `InGame` is one of the two outcomes of a cut, a press in `End` a restart. -/
theorem gameTransitions : Obligations.GameTransitions := by
  intro s hr
  obtain ⟨m, hm, hs⟩ := step_afterCycle s hr
  refine ⟨_, hs, fun hp hg => ?_, fun hp hg => ?_, fun hp => ?_⟩
  · by_cases hend : s.survivors = 0x00#8 ∨ s.ar = 0
    · rw [eq_afterCycle_of_step hs hr (.cutEnd hp hg hend)]
      exact .inl ⟨rfl, rfl⟩
    · obtain ⟨hsurv, hne⟩ := not_or.1 hend
      rw [eq_afterCycle_of_step hs hr (.cutDescend hp hg hsurv hne)]
      exact .inr ⟨hg, rowAbove_val_succ hne⟩
  · rw [eq_afterCycle_of_step hs hr (.restart hp hg)]
    exact ⟨rfl, rfl⟩
  · obtain ⟨-, hgs, -⟩ := hm.game_kept_of_not_press hp
    exact hgs

/-- R152: the main-loop part of the listing is a function of the game, the sequencer, `PF`, `SY2` and `rdy`. -/
theorem listingMain_congr {s s' : State} (v : Config.Values) (rdy : Bool) (hgame : sameGame s s')
    (hseq : sameSequencer s s') (hpf : s.pf = s'.pf) (hsy2 : s.sy2 = s'.sy2) :
    sameGame (listingMain v s rdy) (listingMain v s' rdy) ∧
      sameSequencer (listingMain v s rdy) (listingMain v s' rdy) := by
  obtain ⟨hfb, har, hgs, hspd⟩ := hgame
  obtain ⟨hph, hcnt, hri⟩ := hseq
  have hrow (r : Idx) : s'.row r = s.row r := by rw [State.row, State.row, hfb]
  have hsupport : s'.support s.ar = s.support s.ar := by simp only [State.support, hrow]
  simp only [sameGame, sameSequencer]
  cases hp : s.ph with
  | poll =>
    simp only [listingMain, hph, hp, ← hpf]
    split <;> simp [*]
  | confirm =>
    simp only [listingMain, hph, hp, hcnt, ← hsy2]
    split <;> [skip; split] <;> simp [*]
  | press =>
    cases hg : s.gs with
    | inGame =>
      simp only [listingMain, hph, hp, hgs, hg, har, hrow, hsupport, hfb]
      split <;> simp [*]
    | ended => simp [listingMain, listingInitGame, hph, hp, hgs, hg, hcnt]
  | renderP | renderT =>
    simp only [listingMain, hph, hp, hri]
    split <;> [split; skip] <;> simp [*]
  | shift =>
    simp only [listingMain, hph, hp, hgs]
    split <;> simp [*]
  | wait =>
    simp only [listingMain, hph, hp, hcnt]
    split <;> simp [*]

/-- R80: the events of a cycle are a function of the game, the sequencer, `SY2`, `rst` and `rdy`. -/
theorem events_congr {s s' : State} (hgame : sameGame s s') (hseq : sameSequencer s s') (hsy2 : s.sy2 = s'.sy2)
    (hrst : s.input.rst = s'.input.rst) (hrdy : s.input.rdy = s'.input.rdy) : s.events = s'.events := by
  obtain ⟨hfb, -⟩ := hgame
  obtain ⟨hph, hcnt, hri⟩ := hseq
  simp only [State.events, State.accepts, State.rendering, State.outputs, State.rowBits_eq_row, State.row,
    State.pressEv, State.clearNow, hfb, hph, hcnt, hri, hsy2, hrst, hrdy]

theorem sameGame_trans {s t u : State} (h : sameGame s t) (h' : sameGame t u) : sameGame s u := by
  obtain ⟨hfb, har, hgs, hspd⟩ := h
  obtain ⟨hfb', har', hgs', hspd'⟩ := h'
  exact ⟨hfb'.trans hfb, har'.trans har, hgs'.trans hgs, hspd'.trans hspd⟩

theorem sameGame_symm {s t : State} (h : sameGame s t) : sameGame t s := by
  obtain ⟨hfb, har, hgs, hspd⟩ := h
  exact ⟨hfb.symm, har.symm, hgs.symm, hspd.symm⟩

theorem sameSequencer_trans {s t u : State} (h : sameSequencer s t) (h' : sameSequencer t u) : sameSequencer s u := by
  obtain ⟨hph, hcnt, hri⟩ := h
  obtain ⟨hph', hcnt', hri'⟩ := h'
  exact ⟨hph'.trans hph, hcnt'.trans hcnt, hri'.trans hri⟩

theorem sameSequencer_symm {s t : State} (h : sameSequencer s t) : sameSequencer t s := by
  obtain ⟨hph, hcnt, hri⟩ := h
  exact ⟨hph.symm, hcnt.symm, hri.symm⟩

/-- Settles O46: both steps are the listing's, and the listing's main loop reads none of the three. -/
theorem mainLoopIgnoresTheRawLine : Obligations.MainLoopIgnoresTheRawLine := by
  intro s s' t t' hgame hseq hpf hsy2 hrst hrdy ht ht'
  obtain ⟨hlgame, -, hlseq⟩ := step_eq_listing ht
  obtain ⟨hlgame', -, hlseq'⟩ := step_eq_listing ht'
  have hlisting : sameGame (listingStep Config.values s s.input) (listingStep Config.values s' s'.input) ∧
      sameSequencer (listingStep Config.values s s.input) (listingStep Config.values s' s'.input) := by
    cases hr : s.input.rst with
    | true =>
      rw [listingStep, listingStep, ← hrst, hr, if_pos rfl, if_pos rfl]
      exact ⟨⟨rfl, rfl, rfl, rfl⟩, rfl, rfl, rfl⟩
    | false =>
      rw [listingStep, listingStep, ← hrst, ← hrdy, hr, if_neg Bool.false_ne_true, if_neg Bool.false_ne_true]
      exact listingMain_congr _ _ hgame hseq hpf hsy2
  obtain ⟨hg, hs⟩ := hlisting
  exact ⟨sameGame_trans (sameGame_symm hlgame) (sameGame_trans hg hlgame'),
    sameSequencer_trans (sameSequencer_symm hlseq) (sameSequencer_trans hs hlseq'),
    events_congr hgame hseq hsy2 hrst hrdy⟩

end Sys2Proof.Machine

/-! ### Runs, cycle by cycle (70_reset_and_hazards.md R224)

A statement on `n` cycles is an invariant that names the number of cycles made: `exists_run` builds the run from one step of
it. A bound on how soon something can happen is a function of the state that falls by at most one in a cycle. -/

namespace Sys2Proof.Machine

/-! #### Building a run -/

/-- One cycle more at the end of a run. -/
theorem runsTo_snoc {s t u : State} {n : Nat} (h : runsTo s n t) (hu : step t = .next u) : runsTo s (n + 1) u :=
  runsTo_trans s t u n 1 h (runsTo_one t u hu)

/-- The input vector at the end of a run. -/
theorem runsTo_input {s t : State} {n : Nat} (h : runsTo s n t) : t.input = s.inputAt n := runsTo_inputAt s t n 0 h

theorem noReset_of_runsTo {s t : State} {m n : Nat} (h : runsTo s m t) (hn : noReset s (m + n)) : noReset t n := by
  intro k hk
  rw [runsTo_inputAt s t m k h]
  exact hn _ (Nat.add_lt_add_left hk m)

theorem alwaysReady_of_runsTo {s t : State} {m n : Nat} (h : runsTo s m t) (hn : alwaysReady s (m + n)) :
    alwaysReady t n := by
  intro k hk
  rw [runsTo_inputAt s t m k h]
  exact hn _ (Nat.add_lt_add_left hk m)

theorem noReset_mono {s : State} {m n : Nat} (hmn : m ≤ n) (h : noReset s n) : noReset s m :=
  fun k hk => h k (hk.trans_le hmn)

/-- What holds at the start, and goes on from each cycle to the next, holds at the end of a run. -/
theorem exists_run {P : Nat → State → Prop} {s : State} {n : Nat} (hstart : P 0 s)
    (hstep : ∀ k t, k < n → runsTo s k t → P k t → ∃ u, step t = .next u ∧ P (k + 1) u) :
    ∃ t, runsTo s n t ∧ P n t := by
  induction n with
  | zero => exact ⟨s, rfl, hstart⟩
  | succ n ih =>
    obtain ⟨t, hrun, ht⟩ := ih fun k t hk => hstep k t (hk.trans (Nat.lt_succ_self n))
    obtain ⟨u, hu, hPu⟩ := hstep n t (Nat.lt_succ_self n) hrun ht
    exact ⟨u, runsTo_snoc hrun hu, hPu⟩

/-- What falls by at most one in a cycle falls by at most `n` in `n` cycles. -/
theorem le_add_of_runsTo {f : State → Nat}
    (hf : ∀ s t, s.input.rst = false → step s = .next t → f s ≤ f t + 1) {s t : State} {n : Nat} (hn : noReset s n)
    (h : runsTo s n t) : f s ≤ f t + n := by
  induction n generalizing s with
  | zero =>
    obtain rfl : t = s := h
    exact le_refl _
  | succ n ih =>
    obtain ⟨u, hu, hrun⟩ := h
    have hfirst := hf s u (noReset_head s n hn) hu
    have hrest := ih (noReset_of_step s u n hu hn) hrun
    omega

theorem sameGame_refl (s : State) : sameGame s s := ⟨rfl, rfl, rfl, rfl⟩

/-- The game after a cycle is what the sequencer's operation left of it. -/
theorem sameGame_afterCycle {s m : State} (u : State) (h : sameGame s m) : sameGame s (u.afterCycle m) := by
  obtain ⟨hfb, har, hgs, hspd⟩ := h
  exact ⟨hfb, har, hgs, hspd⟩

/-- The sequencer's own registers and the transport are no part of the game. -/
theorem sameGame_setPh (s : State) (p : Phase) : sameGame s (s.setPh p) := ⟨rfl, rfl, rfl, rfl⟩
theorem sameGame_setCnt (s : State) (c : Count) : sameGame s (s.setCnt c) := ⟨rfl, rfl, rfl, rfl⟩
theorem sameGame_sendRow (s : State) (r : Idx) : sameGame s (s.sendRow.setRi r) := ⟨rfl, rfl, rfl, rfl⟩
theorem sameGame_setPf_setPh (s : State) (b : Bool) (p : Phase) : sameGame s ((s.setPf b).setPh p) :=
  ⟨rfl, rfl, rfl, rfl⟩

/-! #### Two counting phases (R96, R148) -/

/-- A counting cycle of CONFIRM or of WAIT. -/
theorem step_of_count {s : State} (hr : s.input.rst = false) (hp : s.ph = .wait ∨ s.ph = .confirm) (hc : s.cnt ≠ 0#32) :
    step s = .next (s.afterCycle (s.setCnt (s.cnt - 1#32))) :=
  hp.elim (fun hp => step_of_mainCase hr (.waitCount hp hc)) (fun hp => step_of_mainCase hr (.confirmCount hp hc))

/-- The state `k` cycles into a counting phase that stood at `s`. -/
structure CountedDown (s : State) (k : Nat) (t : State) : Prop where
  ph : t.ph = s.ph
  cnt : t.cnt.toNat = s.cnt.toNat - k
  game : sameGame s t
  tx : t.tx = s.tx

/-- R141: a counting phase counts, whatever the button and the transport do. -/
theorem counting_run {s : State} {k : Nat} (hp : s.ph = .wait ∨ s.ph = .confirm) (hk : k ≤ s.cnt.toNat)
    (hn : noReset s k) : ∃ t, runsTo s k t ∧ CountedDown s k t := by
  refine exists_run ⟨rfl, rfl, sameGame_refl s, rfl⟩ fun j t hj hrun ht => ?_
  have hcnt := ht.cnt
  have hne : t.cnt ≠ 0#32 := fun hzero => by simp [hzero] at hcnt; omega
  refine ⟨_, step_of_count (by rw [runsTo_input hrun]; exact hn j hj) (by rwa [ht.ph]) hne, ht.ph, ?_,
    sameGame_afterCycle t (sameGame_trans ht.game (sameGame_setCnt t _)), ht.tx⟩
  rw [State.afterCycle_cnt, State.setCnt_cnt, toNat_sub_one hne, hcnt]
  omega

/-- The last cycle of a counting phase. -/
theorem counting_run_end {s : State} (hp : s.ph = .wait ∨ s.ph = .confirm) (hn : noReset s (s.cnt.toNat + 1)) :
    ∃ t, runsTo s s.cnt.toNat t ∧ t.input.rst = false ∧ t.ph = s.ph ∧ t.cnt = 0#32 ∧ sameGame s t ∧ t.tx = s.tx := by
  obtain ⟨t, hrun, ht⟩ := counting_run hp (le_refl _) (noReset_mono (Nat.le_succ _) hn)
  have hzero : t.cnt = 0#32 := BitVec.eq_of_toNat_eq (by rw [ht.cnt, Nat.sub_self]; rfl)
  exact ⟨t, hrun, by rw [runsTo_input hrun]; exact hn _ (Nat.lt_succ_self _), ht.ph, hzero, ht.game, ht.tx⟩

/-- Settles O34: WAIT's two equations. -/
theorem waitCountsThenPolls : Obligations.WaitCountsThenPolls := by
  refine fun s => ⟨fun hp => ?_, exec_wait_of_count, exec_wait_of_zero⟩
  rw [decodeSel_sel, hp]
  rfl

/-- Settles O35: `counting_run`, and the exit to POLL from its end. -/
theorem waitPhaseLength : Obligations.WaitPhaseLength := by
  refine fun s hp hn => ⟨fun k hk => ?_, ?_⟩
  · obtain ⟨u, hrun, hu⟩ := counting_run (.inl hp) hk (noReset_mono (hk.trans (Nat.le_succ _)) hn)
    exact ⟨u, hrun, hu.ph.trans hp, hu.cnt, hu.game, hu.tx⟩
  · obtain ⟨u, hrun, hr, hph, hcnt, hgame, htx⟩ := counting_run_end (.inl hp) hn
    exact ⟨_, runsTo_snoc hrun (step_of_mainCase hr (.waitExit (hph.trans hp) hcnt)), rfl, hcnt,
      sameGame_afterCycle u (sameGame_trans hgame (sameGame_setPh u _)), htx⟩

/-- Settles O18: CONFIRM's two equations, the second with the sample of `SY2` put in. -/
theorem confirmCountsThenDecides : Obligations.ConfirmCountsThenDecides := by
  refine fun s => ⟨fun hp => ?_, exec_confirm_of_count, fun hc hy => ?_, fun hc hy => ?_⟩
  · rw [decodeSel_sel, hp]
    rfl
  · rw [exec_confirm_of_zero hc, if_neg (by simp [hy])]
    rfl
  · rw [exec_confirm_of_zero hc, if_pos hy]
    rfl

/-- R97: the last cycle of a CONFIRM phase. -/
theorem step_confirm_end {s : State} (hr : s.input.rst = false) (hp : s.ph = .confirm) (hc : s.cnt = 0#32) :
    ∃ t, step s = .next t ∧ t.pf = false ∧ sameGame s t ∧ t.ph = if s.sy2 then .shift else .press := by
  have hpf : s.nextPf = false := s.nextPf_of_clear (s.clearNow_iff.2 ⟨hp, hc⟩)
  cases hy : s.sy2 with
  | true => exact ⟨_, step_of_mainCase hr (.confirmNoise hp hc hy), hpf,
      sameGame_afterCycle s (sameGame_setPf_setPh s _ _), rfl⟩
  | false => exact ⟨_, step_of_mainCase hr (.confirmPress hp hc hy), hpf,
      sameGame_afterCycle s (sameGame_setPf_setPh s _ _), rfl⟩

/-- Settles O19: `counting_run`, and the decision from its end. -/
theorem confirmPhaseLength : Obligations.ConfirmPhaseLength := by
  refine fun s hp hn => ⟨fun k hk => ?_, ?_⟩
  · obtain ⟨u, hrun, hu⟩ := counting_run (.inr hp) hk (noReset_mono (hk.trans (Nat.le_succ _)) hn)
    exact ⟨u, hrun, hu.ph.trans hp, hu.cnt, hu.game, hu.tx⟩
  · obtain ⟨u, hrun, hr, hph, hcnt, hgame, -⟩ := counting_run_end (.inr hp) hn
    obtain ⟨t, ht, hpf, hgame', hnext⟩ := step_confirm_end hr (hph.trans hp) hcnt
    exact ⟨u, t, hrun, runsTo_snoc hrun ht, hpf, sameGame_trans hgame hgame', hnext⟩

/-! #### The synchronizer over several cycles (R91 to R94) -/

/-- Settles O15: two cycles bring the fall into `SY2` and `PREV`, the third sets the flag. -/
theorem pinFallReachesTheFlag : Obligations.PinFallReachesTheFlag := by
  intro s hsy1 hbtn hn
  obtain ⟨v, hv, hvsy1, hvsy2, -⟩ := step_debouncer (noReset_head s 2 hn)
  have hnv := noReset_of_step s v 2 hv hn
  obtain ⟨u, hu, -, husy2, huprev, -⟩ := step_debouncer (noReset_head v 1 hnv)
  have hnu := noReset_of_step v u 1 hu hnv
  obtain ⟨t, ht, -, -, -, htpf⟩ := step_debouncer (noReset_head u 0 hnu)
  have hrun : runsTo s 2 u := ⟨v, hv, runsTo_one v u hu⟩
  have hfall : u.fall = true := u.fall_iff.2 ⟨by rw [huprev, hvsy2, hsy1], by rw [husy2, hvsy1]; exact hbtn⟩
  exact ⟨u, t, hrun, runsTo_snoc hrun ht, hfall, fun hclear => by
    rw [htpf, u.nextPf_of_not_clear hclear, hfall, Bool.true_or]⟩

/-- `n` cycles after a reset with the button held low: the zeros have come `n` flip-flops far, and the first three cycles
lie in the first render pass. -/
structure HeldSinceReset (n : Nat) (t : State) : Prop where
  sy1 : t.sy1 = decide (n < 1)
  sy2 : t.sy2 = decide (n < 2)
  prev : t.prev = decide (n < 3)
  early : n < 3 → t.pf = false ∧ t.ph = .renderP ∧ t.ri.val ≤ n
  flag : n = 3 → t.pf = true

theorem HeldSinceReset.fall_iff {n : Nat} {t : State} (h : HeldSinceReset n t) : t.fall = true ↔ n = 2 := by
  rw [State.fall_iff, h.prev, h.sy2, decide_eq_true_eq, decide_eq_false_iff_not]
  omega

/-- A render phase stays for as long as fewer than eight rows were sent. -/
theorem MainCase.renderP_of_ri_lt {s m : State} (h : MainCase s m) (hp : s.ph = .renderP) (hri : s.ri.val < 7) :
    m.ph = .renderP ∧ m.ri.val ≤ s.ri.val + 1 := by
  cases h with
  | stallP => exact ⟨hp, Nat.le_succ _⟩
  | writeP _ _ hi => exact ⟨hp, (ri_succ_val hi).le⟩
  | lastP _ _ hi => exact absurd hri (by rw [hi]; decide)
  | _ hph => exact absurd (hph.symm.trans hp) (by decide)

theorem HeldSinceReset.step {n : Nat} {t : State} (h : HeldSinceReset n t) (hr : t.input.rst = false)
    (hb : t.input.btn = false) : ∃ u, step t = .next u ∧ HeldSinceReset (n + 1) u := by
  obtain ⟨m, hm, hs⟩ := step_afterCycle t hr
  have hclear (hn : n < 3) : t.clearNow = false := by
    obtain ⟨-, hph, -⟩ := h.early hn
    exact State.clearNow_of_ph_ne (by rw [hph]; decide)
  refine ⟨_, hs, by simp [hb], by simp [h.sy1], by simp [h.sy2, Nat.succ_lt_succ_iff], fun hn => ?_, fun hn => ?_⟩
  · obtain ⟨hpf, hph, hri⟩ := h.early (by omega)
    have hfall : t.fall = false := Bool.eq_false_iff.2 fun hf => by have := h.fall_iff.1 hf; omega
    obtain ⟨hph', hri'⟩ := hm.renderP_of_ri_lt hph (by omega)
    refine ⟨?_, hph', hri'.trans (Nat.succ_le_succ hri)⟩
    rw [State.afterCycle_pf, t.nextPf_of_not_clear (hclear (by omega)), hfall, hpf, Bool.or_false]
  · rw [State.afterCycle_pf, t.nextPf_of_not_clear (hclear (by omega)), h.fall_iff.2 (by omega), Bool.true_or]

/-- The synchronizer holds ones and nothing is pending. -/
structure Released (t : State) : Prop where
  sy1 : t.sy1 = true
  sy2 : t.sy2 = true
  prev : t.prev = true
  pf : t.pf = false

theorem Released.fall_eq_false {t : State} (h : Released t) : t.fall = false := by
  simp [State.fall, h.sy2]

theorem Released.step {t : State} (h : Released t) (hr : t.input.rst = false) (hb : t.input.btn = true) :
    ∃ u, step t = .next u ∧ Released u := by
  obtain ⟨u, hu, hsy1, hsy2, hprev, hpf⟩ := step_debouncer hr
  have hflag : t.nextPf = false := by simp [State.nextPf, h.fall_eq_false, h.pf]
  exact ⟨u, hu, hsy1.trans hb, hsy2.trans h.sy1, hprev.trans h.sy2, hpf.trans hflag⟩

/-- Settles O16: the two invariants of a run from reset. -/
theorem heldThroughResetIsOneEdge : Obligations.HeldThroughResetIsOneEdge := by
  refine ⟨⟨rfl, rfl, rfl⟩, fun stim cycle n hn => ⟨fun hheld => ?_, fun hfree => ?_⟩⟩
  · have hstart : HeldSinceReset 0 { State.reset with stim := stim, cycle := cycle } :=
      ⟨rfl, rfl, rfl, fun _ => ⟨rfl, rfl, Nat.le_refl 0⟩, fun h => absurd h (by decide)⟩
    obtain ⟨t, hrun, ht⟩ := exists_run (n := n) hstart fun k t hk hrun ht =>
      ht.step (by rw [runsTo_input hrun]; exact hn k hk) (by rw [runsTo_input hrun]; exact hheld k hk)
    refine ⟨t, hrun, ht.fall_iff, fun h2 => ?_, fun h3 => ?_, ht.flag⟩
    · rw [ht.sy2, ht.prev, h2]
      decide
    · obtain ⟨hpf, -⟩ := ht.early h3
      exact hpf
  · have hstart : Released { State.reset with stim := stim, cycle := cycle } := ⟨rfl, rfl, rfl, rfl⟩
    obtain ⟨t, hrun, ht⟩ := exists_run (P := fun _ => Released) (n := n) hstart fun k t hk hrun ht =>
      ht.step (by rw [runsTo_input hrun]; exact hn k hk) (by rw [runsTo_input hrun]; exact hfree k hk)
    exact ⟨t, hrun, ht.fall_eq_false, ht.pf⟩

/-! #### Between two Press Events (R99) -/

/-- No confirmation runs and none is pending. -/
def NothingPending (t : State) : Prop := t.pf = false ∧ t.ph ≠ .confirm

theorem nothingPending_of_pressEv {s t : State} (h : s.pressEv = true) (ht : step s = .next t) : NothingPending t := by
  obtain ⟨hr, hp, hc, hy⟩ := s.pressEv_iff.1 h
  rw [eq_afterCycle_of_step ht hr (.confirmPress hp hc hy)]
  exact ⟨s.nextPf_of_clear (s.clearNow_iff.2 ⟨hp, hc⟩), fun hph => by simp at hph⟩

theorem MainCase.ph_eq_confirm {s m : State} (h : MainCase s m) (hm : m.ph = .confirm) :
    s.ph = .confirm ∨ s.pf = true := by
  cases h with
  | pollStart _ hf => exact .inr hf
  | confirmCount hp => exact .inl hp
  | waitCount hp | stallP hp | stallT hp | writeP hp | writeT hp => exact .inl hm
  | _ => simp at hm

/-- R93, R95: without a new fall a cycle leaves nothing pending. -/
theorem nothingPending_step {s t : State} (h : NothingPending s) (hf : s.fall = false) (ht : step s = .next t) :
    NothingPending t := by
  obtain ⟨hpf, hph⟩ := h
  obtain ⟨-, rfl⟩ | ⟨-, m, hm, rfl⟩ := step_mainCase s t ht
  · exact ⟨rfl, fun hp => by simp at hp⟩
  · refine ⟨?_, fun hp => ?_⟩
    · rw [State.afterCycle_pf, s.nextPf_of_not_clear (State.clearNow_of_ph_ne hph), hf, hpf, Bool.or_false]
    · obtain hconf | hset := hm.ph_eq_confirm hp
      · exact hph hconf
      · exact absurd (hset.symm.trans hpf) (by decide)

theorem nothingPending_of_no_fall {s t : State} {n : Nat} (h : NothingPending s) (hrun : runsTo s n t)
    (hfall : ∀ k u, k < n → runsTo s k u → u.fall = false) : NothingPending t := by
  induction n generalizing s with
  | zero =>
    obtain rfl : t = s := hrun
    exact h
  | succ n ih =>
    obtain ⟨u, hu, hrun⟩ := hrun
    exact ih (nothingPending_step h (hfall 0 s (Nat.succ_pos n) rfl) hu) hrun
      fun k v hk hv => hfall (k + 1) v (Nat.succ_lt_succ hk) (runsTo_succ s u v k hu hv)

/-- Settles O21: after an event nothing is pending, and without a fall nothing would be at the next one. -/
theorem pressEventsNeedANewFall : Obligations.PressEventsNeedANewFall := by
  intro s t n hs hn hpos hrun ht
  obtain ⟨n, rfl⟩ : ∃ m, n = m + 1 := ⟨n - 1, by omega⟩
  obtain ⟨u, hu, hrest⟩ := hrun
  by_contra hno
  obtain ⟨-, hph⟩ := nothingPending_of_no_fall (nothingPending_of_pressEv hs hu) hrest fun k v hk hv =>
    Bool.eq_false_iff.2 fun hf => hno ⟨k + 1, v, Nat.succ_pos k, by omega, runsTo_succ s u v k hu hv, hf⟩
  obtain ⟨-, hconf, -⟩ := t.pressEv_iff.1 ht
  exact hph hconf

/-! #### How soon POLL and a Press Event can come (R101, R149) -/

/-- A bound from below on the cycles to the next POLL; nothing is claimed from the phases that a press may cut short. -/
def State.cyclesToPoll (s : State) : Nat :=
  match s.ph with
  | .wait => s.cnt.toNat + 1
  | .renderT => 8 - s.ri.val + intervalCount Config.values s.spd + 1
  | .shift => intervalCount Config.values s.spd + 10
  | .renderP => 8 - s.ri.val + intervalCount Config.values s.spd + 10
  | .poll | .confirm | .press => 0

/-- A bound from below on the cycles to the next Press Event. -/
def State.cyclesToEvent (s : State) : Nat :=
  match s.ph with
  | .confirm => s.cnt.toNat
  | .press => 0
  | .poll | .renderP | .shift | .renderT | .wait => s.cyclesToPoll + Config.values.settleCount + 1

theorem MainCase.cyclesToPoll_le {s m : State} (h : MainCase s m) :
    s.cyclesToPoll ≤ (s.afterCycle m).cyclesToPoll + 1 := by
  cases h with
  | waitCount hp hc =>
    simp [State.cyclesToPoll, hp, toNat_sub_one hc]
    omega
  | writeP hp _ hi | writeT hp _ hi =>
    simp [State.cyclesToPoll, hp, ri_succ_val hi]
    omega
  | lastP hp _ hi | lastT hp _ hi =>
    simp [State.cyclesToPoll, hp, hi, intervalCycles_toNat]
    omega
  | stallP hp | stallT hp => simp [State.cyclesToPoll, hp]
  | waitExit hp hc => simp [State.cyclesToPoll, hp, hc]
  | rotate hp | hold hp =>
    simp [State.cyclesToPoll, hp]
    omega
  | _ hp => simp [State.cyclesToPoll, hp]

theorem MainCase.cyclesToEvent_le {s m : State} (h : MainCase s m) :
    s.cyclesToEvent ≤ (s.afterCycle m).cyclesToEvent + 1 := by
  have hpoll := h.cyclesToPoll_le
  cases h with
  | pollStart hp => simp [State.cyclesToEvent, State.cyclesToPoll, hp, settleCycles_toNat]
  | confirmCount hp hc =>
    simp [State.cyclesToEvent, hp, toNat_sub_one hc]
    omega
  | confirmPress hp hc | confirmNoise hp hc => simp [State.cyclesToEvent, hp, hc]
  | cutEnd hp | cutDescend hp | restart hp => simp [State.cyclesToEvent, hp]
  | _ hp =>
    simp [State.cyclesToEvent, hp]
    omega

theorem step_cyclesToPoll (s t : State) (hr : s.input.rst = false) (ht : step s = .next t) :
    s.cyclesToPoll ≤ t.cyclesToPoll + 1 := by
  obtain ⟨m, hm, hs⟩ := step_afterCycle s hr
  rw [← Host.Outcome.next.inj (hs.symm.trans ht)]
  exact hm.cyclesToPoll_le

theorem step_cyclesToEvent (s t : State) (hr : s.input.rst = false) (ht : step s = .next t) :
    s.cyclesToEvent ≤ t.cyclesToEvent + 1 := by
  obtain ⟨m, hm, hs⟩ := step_afterCycle s hr
  rw [← Host.Outcome.next.inj (hs.symm.trans ht)]
  exact hm.cyclesToEvent_le

theorem cyclesToEvent_of_pressEv {s : State} (h : s.pressEv = true) : s.cyclesToEvent = 0 := by
  obtain ⟨-, hp, hc, -⟩ := s.pressEv_iff.1 h
  simp [State.cyclesToEvent, hp, hc]

theorem cyclesToEvent_of_render_start {s : State} (hp : s.ph = .renderP) (hri : s.ri = 0) :
    s.cyclesToEvent = Config.values.settleCount + intervalCount Config.values s.spd + 19 := by
  simp only [State.cyclesToEvent, State.cyclesToPoll, hp, hri]
  simp
  omega

/-- R121: a PRESS cycle starts the re-render at row 0. -/
theorem step_press {s t : State} (hr : s.input.rst = false) (hp : s.ph = .press) (ht : step s = .next t) :
    t.ph = .renderP ∧ t.ri = 0 := by
  obtain ⟨u, hu, -, -, -, -, -, hpress, -⟩ := phaseGraph s hr
  rw [← Host.Outcome.next.inj (hu.symm.trans ht)]
  exact hpress hp

/-- Settles O22: from row 0 of the re-render, two cycles after the event, `cyclesToEvent` is the stated bound less two. -/
theorem pressEventsAreFarApart : Obligations.PressEventsAreFarApart := by
  intro s p t n hs hn hp hpos hrun ht
  obtain ⟨u, hu, p', hp', rfl⟩ := hp
  have hpress : u.ph = .press := (step_to_press_iff hu).2 hs
  obtain ⟨n, rfl⟩ | rfl : (∃ m, n = m + 2) ∨ n = 1 := by
    obtain rfl | hn2 := eq_or_ne n 1
    · exact .inr rfl
    · exact .inl ⟨n - 2, by omega⟩
  · have hnu := noReset_of_step s u (n + 1) hu hn
    obtain ⟨hph, hri⟩ := step_press (noReset_head u n hnu) hpress hp'
    have hrest := runsTo_of_succ u p t n hp' (runsTo_of_succ s u t (n + 1) hu hrun)
    have hbound := le_add_of_runsTo step_cyclesToEvent (noReset_of_step u p n hp' hnu) hrest
    rw [cyclesToEvent_of_pressEv ht, cyclesToEvent_of_render_start hph hri] at hbound
    omega
  · obtain rfl : t = u := runsTo_of_succ s u t 0 hu hrun
    obtain ⟨-, hconf, -⟩ := t.pressEv_iff.1 ht
    exact absurd (hpress.symm.trans hconf) (by decide)

end Sys2Proof.Machine

/-! ### Render passes and idle trips (20_memory.md R51 to R62, 43_renderer.md R162 to R165, 42_shift_sequencer.md R149)

The log of a run is the list of its accepted writes and press events, and the transport after a run is the transport before it
with the logged writes made. So a statement on the log is one on the display as well. -/

namespace Sys2Proof.Machine

/-! #### The log of a run and the transport after it (R60, R80) -/

theorem eventLog_of_step {s t : State} (n : Nat) (h : step s = .next t) :
    eventLog (n + 1) s = s.events ++ eventLog n t := by
  rw [eventLog, h]

/-- One cycle more at the end of a run adds its events at the end of the log. -/
theorem eventLog_snoc {s t : State} {n : Nat} (h : runsTo s n t) : eventLog (n + 1) s = eventLog n s ++ t.events := by
  induction n generalizing s with
  | zero =>
    obtain rfl : t = s := h
    obtain ⟨u, hu⟩ := step_next t
    rw [eventLog_of_step 0 hu, eventLog, eventLog, List.append_nil, List.nil_append]
  | succ n ih =>
    obtain ⟨u, hu, hrun⟩ := h
    rw [eventLog_of_step (n + 1) hu, eventLog_of_step n hu, ih hrun, List.append_assoc]

/-- What an event does to the transport. -/
def Event.sendTo (m : Memory) : Event → Memory
  | .write reg data => m.write reg.toNat data
  | .press => m

theorem State.events_of_accepts {s : State} (h : s.accepts = true) :
    s.events = [.write (BitVec.ofNat 8 (s.ri.val + 1)) (s.row s.ri)] := by
  have hrend : s.rendering = true := s.rendering_iff.2 (by obtain ⟨hr, hp, -⟩ := s.accepts_iff.1 h; exact ⟨hr, hp⟩)
  rw [State.events, if_pos h, State.outputs_eq, hrend]
  rfl

theorem State.events_of_stall {s : State} (hp : renderPhase s) (hrdy : s.input.rdy = false) : s.events = [] := by
  have hacc : s.accepts = false := by simp [State.accepts, hrdy]
  have hev : s.pressEv = false := State.pressEv_of_ph_ne (by rcases hp with hp | hp <;> simp [hp])
  simp [State.events, hacc, hev]

theorem step_sendTo {s t : State} (h : step s = .next t) : t.tx = s.events.foldl Event.sendTo s.tx := by
  by_cases hacc : s.accepts = true
  · rw [step_tx_of_accepts h hacc, s.events_of_accepts hacc]
    exact congrArg (s.tx.write · _) (Nat.mod_eq_of_lt (by omega)).symm
  · rw [step_tx_of_not_accepts h hacc, State.events, if_neg hacc]
    split <;> rfl

/-- R60: the transport after a run is what the logged writes make of it. -/
theorem runsTo_sendTo {s t : State} {n : Nat} (h : runsTo s n t) : t.tx = (eventLog n s).foldl Event.sendTo s.tx := by
  induction n generalizing s with
  | zero =>
    obtain rfl : t = s := h
    rfl
  | succ n ih =>
    obtain ⟨u, hu, hrun⟩ := h
    rw [ih hrun, step_sendTo hu, eventLog_of_step n hu, List.foldl_append]

/-! #### One cycle of a render pass (R162) -/

theorem step_of_stall {s : State} (hr : s.input.rst = false) (hp : renderPhase s) (hrdy : s.input.rdy = false) :
    step s = .next (s.afterCycle s) :=
  hp.elim (fun hp => step_of_mainCase hr (.stallP hp hrdy)) (fun hp => step_of_mainCase hr (.stallT hp hrdy))

theorem step_of_write {s : State} (hr : s.input.rst = false) (hp : renderPhase s) (hrdy : s.input.rdy = true)
    (hri : s.ri ≠ 7) : step s = .next (s.afterCycle (s.sendRow.setRi (s.ri + 1))) :=
  hp.elim (fun hp => step_of_mainCase hr (.writeP hp hrdy hri)) (fun hp => step_of_mainCase hr (.writeT hp hrdy hri))

/-- R163, R164: the last cycle of a pass. -/
theorem step_of_last {s : State} (hr : s.input.rst = false) (hp : renderPhase s) (hrdy : s.input.rdy = true)
    (hri : s.ri = 7) : ∃ t, step s = .next t ∧ sameGame s t ∧ t.ri = 0 ∧ (s.ph = .renderP → t.ph = .shift) ∧
      (s.ph = .renderT → t.ph = .wait ∧ t.cnt.toNat = intervalCount Config.values s.spd) := by
  obtain hp | hp := hp
  · refine ⟨_, step_of_mainCase hr (.lastP hp hrdy hri), by simp [sameGame], by simp, by simp, fun hT => ?_⟩
    exact absurd (hp.symm.trans hT) (by decide)
  · refine ⟨_, step_of_mainCase hr (.lastT hp hrdy hri), by simp [sameGame], by simp, fun hP => ?_, fun _ => ?_⟩
    · exact absurd (hp.symm.trans hP) (by decide)
    · simp [intervalCycles_toNat]

/-! #### A stalled pass (R60, R216) -/

/-- The state `k` cycles into a stall that began at `s`. -/
structure Stalled (s : State) (k : Nat) (t : State) : Prop where
  game : sameGame s t
  sequencer : sameSequencer s t
  tx : t.tx = s.tx
  log : eventLog k s = []

theorem Stalled.renderPhase {s t : State} {k : Nat} (h : Stalled s k t) (hp : Machine.renderPhase s) :
    Machine.renderPhase t := by
  obtain ⟨hph, -⟩ := h.sequencer
  rwa [Machine.renderPhase, hph]

theorem outputs_congr {s t : State} (hgame : sameGame s t) (hseq : sameSequencer s t) (hp : renderPhase s)
    (hrst : s.input.rst = t.input.rst) : t.outputs = s.outputs := by
  obtain ⟨hfb, -⟩ := hgame
  obtain ⟨hph, hcnt, hri⟩ := hseq
  have hne : s.ph ≠ .confirm := by rcases hp with hp | hp <;> simp [hp]
  have hev : s.pressEv = false := State.pressEv_of_ph_ne hne
  have hev' : t.pressEv = false := State.pressEv_of_ph_ne (hph ▸ hne)
  simp only [State.outputs_eq, hev, hev', State.rendering, State.row, hfb, hph, hri, hrst]

/-- Settles O45: each cycle of the stall leaves the game, the sequencer and the transport, and has no event. -/
theorem stalledRenderWaits : Obligations.StalledRenderWaits := by
  intro s n hp hn hrdy
  obtain ⟨t, hrun, ht⟩ := exists_run (P := Stalled s) (n := n) ⟨sameGame_refl s, ⟨rfl, rfl, rfl⟩, rfl, rfl⟩
    fun k t hk hrun ht => by
      have hstall : t.input.rdy = false := by rw [runsTo_input hrun]; exact hrdy k hk
      have hr : t.input.rst = false := by rw [runsTo_input hrun]; exact hn k (hk.trans (Nat.lt_succ_self n))
      refine ⟨_, step_of_stall hr (ht.renderPhase hp) hstall, sameGame_afterCycle t ht.game, ht.sequencer, ht.tx, ?_⟩
      rw [eventLog_snoc hrun, ht.log, State.events_of_stall (ht.renderPhase hp) hstall]
      rfl
  refine ⟨t, hrun, ht.game, ht.sequencer, ht.tx, outputs_congr ht.game ht.sequencer hp ?_, ht.log⟩
  rw [runsTo_input hrun]
  exact (noReset_head s n hn).trans (hn n (Nat.lt_succ_self n)).symm

/-! #### A pass with pauses (R62) -/

/-- The writes of the first `k` rows of the frame of `s`. -/
def State.firstWrites (s : State) (k : Nat) : List Event :=
  (columns.take k).map fun r => .write (BitVec.ofNat 8 (r.val + 1)) (s.row r)

theorem take_columns_succ (r : Idx) : columns.take (r.val + 1) = columns.take r.val ++ [r] := by
  revert r
  decide

theorem State.firstWrites_succ (s : State) (r : Idx) :
    s.firstWrites (r.val + 1) = s.firstWrites r.val ++ [.write (BitVec.ofNat 8 (r.val + 1)) (s.row r)] := by
  rw [State.firstWrites, take_columns_succ, List.map_append]
  rfl

theorem readyCount_succ (s : State) (n : Nat) :
    readyCount s (n + 1) = readyCount s n + if (s.inputAt n).rdy then 1 else 0 := by
  rw [readyCount, readyCount, List.range_succ, List.countP_append, List.countP_singleton]

theorem readyCount_succ_of_stall {s : State} {n : Nat} (h : (s.inputAt n).rdy = false) :
    readyCount s (n + 1) = readyCount s n := by
  rw [readyCount_succ, h, if_neg Bool.false_ne_true, Nat.add_zero]

theorem readyCount_succ_of_ready {s : State} {n : Nat} (h : (s.inputAt n).rdy = true) :
    readyCount s (n + 1) = readyCount s n + 1 := by
  rw [readyCount_succ, h, if_pos rfl]

theorem readyCount_mono (s : State) {m n : Nat} (h : m ≤ n) : readyCount s m ≤ readyCount s n := by
  induction n, h using Nat.le_induction with
  | base => exact le_refl _
  | succ n _ ih =>
    rw [readyCount_succ]
    omega

theorem readyCount_of_alwaysReady {s : State} {n : Nat} (h : alwaysReady s n) : readyCount s n = n := by
  rw [readyCount, List.countP_eq_length.2 fun k hk => h k (List.mem_range.1 hk), List.length_range]

/-- The state `k` cycles into a pass that began at row 0 of `s` and is not over. -/
structure InPass (s : State) (k : Nat) (t : State) : Prop where
  ph : t.ph = s.ph
  ri : t.ri.val = readyCount s k
  game : sameGame s t
  cnt : t.cnt = s.cnt
  log : eventLog k s = s.firstWrites (readyCount s k)

theorem InPass.row {s t : State} {k : Nat} (h : InPass s k t) (r : Idx) : t.row r = s.row r := by
  obtain ⟨hfb, -⟩ := h.game
  rw [State.row, State.row, hfb]

theorem InPass.renderPhase {s t : State} {k : Nat} (h : InPass s k t) (hp : Machine.renderPhase s) :
    Machine.renderPhase t := by
  rwa [Machine.renderPhase, h.ph]

/-- R57: the next accepted write is that of the next row. -/
theorem InPass.log_of_accepts {s t : State} {k : Nat} (h : InPass s k t) (hrun : runsTo s k t) (ha : t.accepts = true) :
    eventLog (k + 1) s = s.firstWrites (readyCount s k + 1) := by
  rw [eventLog_snoc hrun, h.log, State.events_of_accepts ha, h.row, ← h.ri, State.firstWrites_succ]

theorem InPass.step {s t : State} {k : Nat} (h : InPass s k t) (hp : Machine.renderPhase s) (hrun : runsTo s k t)
    (hr : t.input.rst = false) (hlt : readyCount s (k + 1) < 8) :
    ∃ u, step t = .next u ∧ InPass s (k + 1) u := by
  have hphase := h.renderPhase hp
  have hinput := runsTo_input hrun
  cases hrdy : t.input.rdy with
  | false =>
    have hcount := readyCount_succ_of_stall (hinput ▸ hrdy)
    refine ⟨_, step_of_stall hr hphase hrdy, by simp [h.ph], by simp [hcount, h.ri],
      sameGame_afterCycle t h.game, by simp [h.cnt], ?_⟩
    rw [eventLog_snoc hrun, h.log, State.events_of_stall hphase hrdy, List.append_nil, hcount]
  | true =>
    have hcount := readyCount_succ_of_ready (hinput ▸ hrdy)
    have hri : t.ri ≠ 7 := fun h7 => by
      have hval : 7 = readyCount s k := (congrArg Fin.val h7).symm.trans h.ri
      omega
    refine ⟨_, step_of_write hr hphase hrdy hri, by simp [State.sendRow, h.ph], ?_,
      sameGame_afterCycle t (sameGame_trans h.game (sameGame_sendRow t _)), by simp [State.sendRow, h.cnt], ?_⟩
    · rw [State.afterCycle_ri, State.setRi_ri, ri_succ_val hri, h.ri, hcount]
    · rw [h.log_of_accepts hrun (t.accepts_iff.2 ⟨hr, hphase, hrdy⟩), hcount]

theorem pass_run {s : State} {n : Nat} (hp : renderPhase s) (hri : s.ri = 0) (hn : noReset s n)
    (hlt : readyCount s n < 8) : ∃ t, runsTo s n t ∧ InPass s n t := by
  refine exists_run ⟨rfl, by rw [hri]; rfl, sameGame_refl s, rfl, rfl⟩ fun k t hk hrun ht => ?_
  exact ht.step hp hrun (by rw [runsTo_input hrun]; exact hn k hk) ((readyCount_mono s hk).trans_lt hlt)

/-- Settles O43: `pass_run`. -/
theorem renderPassWritesInOrder : Obligations.RenderPassWritesInOrder := by
  intro s n hp hri hn hlt
  obtain ⟨t, hrun, ht⟩ := pass_run hp hri hn hlt
  exact ⟨t, hrun, ht.ph, ht.ri, ht.game, ht.cnt, ht.log⟩

/-! #### A whole pass (R62, R163, R164) -/

/-- The transport after the writes of some rows: the written registers hold their rows, the others are as before. -/
theorem read_sendTo_rows (rows : List Idx) (f : Idx → Byte) (m : Memory) (a : Nat) :
    ((rows.map fun r => Event.write (BitVec.ofNat 8 (r.val + 1)) (f r)).foldl Event.sendTo m).read a =
      if h : ∃ r ∈ rows, a = r.val + 1 then some (f ⟨a - 1, by obtain ⟨r, -, hr⟩ := h; omega⟩) else m.read a := by
  induction rows generalizing m with
  | nil => simp
  | cons r rows ih =>
    have hreg : (BitVec.ofNat 8 (r.val + 1)).toNat = r.val + 1 := Nat.mod_eq_of_lt (by omega)
    rw [List.map_cons, List.foldl_cons, ih]
    by_cases hrows : ∃ q ∈ rows, a = q.val + 1
    · rw [dif_pos hrows, dif_pos (by obtain ⟨q, hq, ha⟩ := hrows; exact ⟨q, List.mem_cons_of_mem _ hq, ha⟩)]
    · rw [dif_neg hrows, Event.sendTo, hreg]
      obtain rfl | hne := eq_or_ne a (r.val + 1)
      · rw [dif_pos ⟨r, List.mem_cons_self, rfl⟩, Memory.read_write_same]
        rfl
      · rw [dif_neg, Memory.read_write_of_ne _ _ _ _ hne]
        rintro ⟨q, hq, ha⟩
        obtain rfl | hq := List.mem_cons.1 hq
        · exact hne ha
        · exact hrows ⟨q, hq, ha⟩

theorem whole_pass_run {s : State} (hp : renderPhase s) (hri : s.ri = 0) (hn : noReset s 8) (hrdy : alwaysReady s 8) :
    eventLog 8 s = s.firstWrites 8 ∧ ∃ t, runsTo s 8 t ∧ sameGame s t ∧ t.ri = 0 ∧
      (s.ph = .renderP → t.ph = .shift) ∧
      (s.ph = .renderT → t.ph = .wait ∧ t.cnt.toNat = intervalCount Config.values s.spd) := by
  have hseven : readyCount s 7 = 7 := readyCount_of_alwaysReady fun k hk => hrdy k (by omega)
  obtain ⟨u, hrun, hu⟩ := pass_run hp hri (noReset_mono (show 7 ≤ 8 by decide) hn) (by rw [hseven]; decide)
  have hr : u.input.rst = false := by rw [runsTo_input hrun]; exact hn 7 (by decide)
  have hready : u.input.rdy = true := by rw [runsTo_input hrun]; exact hrdy 7 (by decide)
  have hri7 : u.ri = 7 := Fin.ext (hu.ri.trans hseven)
  obtain ⟨t, ht, hgame, hri0, hshift, hwait⟩ := step_of_last hr (hu.renderPhase hp) hready hri7
  obtain ⟨-, -, -, hspd⟩ := hu.game
  rw [hu.ph] at hshift
  rw [hu.ph, hspd] at hwait
  have hlog := hu.log_of_accepts hrun (u.accepts_iff.2 ⟨hr, hu.renderPhase hp, hready⟩)
  rw [hseven] at hlog
  exact ⟨hlog, t, runsTo_snoc hrun ht, sameGame_trans hu.game hgame, hri0, hshift, hwait⟩

/-- Settles O44: the log by `whole_pass_run`, the display by `runsTo_sendTo`. -/
theorem renderPassShowsTheFrame : Obligations.RenderPassShowsTheFrame := by
  intro s hp hri hn hrdy
  obtain ⟨hlog, t, hrun, hgame, hri0, hshift, hwait⟩ := whole_pass_run hp hri hn hrdy
  have htx (a : Nat) := congrArg (Memory.read · a) (runsTo_sendTo hrun)
  simp only [hlog, State.firstWrites, read_sendTo_rows] at htx
  refine ⟨hlog, t, hrun, hgame, hri0, fun r => ?_, fun a ha => ?_, hshift, hwait⟩
  · rw [htx, dif_pos ⟨r, mem_columns r, rfl⟩]
    rfl
  · rw [htx, dif_neg]
    rintro ⟨r, -, hr⟩
    omega

/-! #### The two render phases (R165) -/

/-- Settles O41: the two operations differ in what the sequencer does after row 7, and the outputs and events ask only whether
the phase is a render phase. -/
theorem renderPhasesLookAlike : Obligations.RenderPhasesLookAlike := by
  intro s t t' ht ht'
  rw [exec_renderP, Host.Outcome.next.injEq] at ht
  rw [exec_renderT, Host.Outcome.next.injEq] at ht'
  subst ht ht'
  cases hrdy : s.input.rdy with
  | false =>
    rw [State.renderStep_of_stall _ hrdy, State.renderStep_of_stall _ hrdy]
    exact ⟨fun _ => rfl, sameGame_refl s, rfl, rfl, rfl⟩
  | true =>
    obtain ⟨hgame, -, htx, -⟩ := State.renderStep_keeps hrdy keepsAllButSequencer_toShift
    obtain ⟨hgame', -, htx', -⟩ := State.renderStep_keeps hrdy (keepsAllButSequencer_toWait s.spd)
    refine ⟨fun a => (htx a).trans (htx' a).symm, sameGame_trans (sameGame_symm hgame) hgame', ?_, rfl, rfl⟩
    by_cases hri : s.ri = 7
    · rw [State.renderStep_of_last _ hrdy hri, State.renderStep_of_last _ hrdy hri]
      rfl
    · rw [State.renderStep_of_write _ hrdy hri, State.renderStep_of_write _ hrdy hri]

/-! #### An idle trip (R149) -/

/-- R143, R144: what one tick makes of the game: the active row rotates in `InGame`, and nothing else changes. -/
structure Ticked (s t : State) : Prop where
  ar : t.ar = s.ar
  gs : t.gs = s.gs
  spd : t.spd = s.spd
  rest : ∀ r : Idx, r ≠ s.ar → t.row r = s.row r
  active : t.row s.ar = if s.gs = .inGame then rol8 (s.row s.ar) else s.row s.ar

theorem Ticked.trans_sameGame {s t u : State} (h : Ticked s t) (h' : sameGame t u) : Ticked s u := by
  obtain ⟨hfb, har, hgs, hspd⟩ := h'
  have hrow (r : Idx) : u.row r = t.row r := by rw [State.row, State.row, hfb]
  exact ⟨har.trans h.ar, hgs.trans h.gs, hspd.trans h.spd, fun r hr => (hrow r).trans (h.rest r hr),
    (hrow _).trans h.active⟩

/-- A SHIFT cycle makes the tick and starts its render. -/
theorem step_of_shift {s : State} (hr : s.input.rst = false) (hp : s.ph = .shift) :
    ∃ t, step s = .next t ∧ t.ph = .renderT ∧ t.ri = 0 ∧ Ticked s t := by
  cases hg : s.gs with
  | inGame =>
    refine ⟨_, step_of_mainCase hr (.rotate hp hg), by simp, by simp, by simp, by simp, by simp, ?_, by simp [hg]⟩
    simp +contextual [State.setRow_row_of_ne]
  | ended =>
    exact ⟨_, step_of_mainCase hr (.hold hp hg), by simp, by simp, by simp, by simp, by simp, by simp, by simp [hg]⟩

/-- R95, R140: an idle POLL goes to the tick. -/
theorem idle_poll_run {s : State} (hp : s.ph = .poll) (hpf : s.pf = false) (hn : noReset s 2) :
    ∃ t, runsTo s 2 t ∧ t.ph = .renderT ∧ t.ri = 0 ∧ Ticked s t := by
  have hpoll := step_of_mainCase (noReset_head s 1 hn) (.pollIdle hp hpf)
  have hrst := noReset_head _ 0 (noReset_of_step _ _ 1 hpoll hn)
  obtain ⟨t, ht, hph, hri, htick⟩ := step_of_shift hrst (by simp)
  exact ⟨t, runsTo_succ _ _ _ _ hpoll (runsTo_one _ _ ht), hph, hri, htick.ar, htick.gs, htick.spd, htick.rest,
    htick.active⟩

/-- R147, R148, R164: the tick's render with the transport always ready, and the wait after it. -/
theorem render_and_wait_run {s : State} (hp : s.ph = .renderT) (hri : s.ri = 0)
    (hn : noReset s (8 + (intervalCount Config.values s.spd + 1))) (hrdy : alwaysReady s 8) :
    ∃ t, runsTo s (8 + (intervalCount Config.values s.spd + 1)) t ∧ t.ph = .poll ∧ sameGame s t := by
  obtain ⟨-, u, hu, hgame, -, -, hwait⟩ :=
    whole_pass_run (.inr hp) hri (noReset_mono (Nat.le_add_right _ _) hn) hrdy
  obtain ⟨hph, hcnt⟩ := hwait hp
  rw [← hcnt] at hn ⊢
  obtain ⟨-, t, ht, hpoll, -, hgame', -⟩ := waitPhaseLength u hph (noReset_of_runsTo hu hn)
  exact ⟨t, runsTo_trans s u t _ _ hu ht, hpoll, sameGame_trans hgame hgame'⟩

theorem cyclesToPoll_of_poll {s : State} (h : s.ph = .poll) : s.cyclesToPoll = 0 := by
  rw [State.cyclesToPoll, h]

theorem cyclesToPoll_of_shift {s : State} (h : s.ph = .shift) :
    s.cyclesToPoll = intervalCount Config.values s.spd + 10 := by
  rw [State.cyclesToPoll, h]

/-- R149: after an idle POLL the next one is not sooner than the tick allows. -/
theorem le_of_next_poll {s u : State} {k : Nat} (hp : s.ph = .poll) (hpf : s.pf = false) (hn : noReset s k)
    (hpos : 0 < k) (hrun : runsTo s k u) (hu : u.ph = .poll) : intervalCount Config.values s.spd + 11 ≤ k := by
  obtain ⟨k, rfl⟩ : ∃ j, k = j + 1 := ⟨k - 1, by omega⟩
  have hstep := step_of_mainCase (noReset_head s k hn) (.pollIdle hp hpf)
  have hbound := le_add_of_runsTo step_cyclesToPoll (noReset_of_step _ _ k hstep hn)
    (runsTo_of_succ _ _ _ _ hstep hrun)
  rw [cyclesToPoll_of_poll hu, cyclesToPoll_of_shift (by simp), State.afterCycle_spd, State.setPh_spd] at hbound
  omega

/-- Settles O36: to the render by `idle_poll_run`, back to POLL by `render_and_wait_run`; none sooner by
`le_of_next_poll`. -/
theorem idleTripIsOneTick : Obligations.IdleTripIsOneTick := by
  intro s hp hpf hn hrdy
  refine ⟨fun k u hpos hlt hrun hu => ?_, ?_⟩
  · have hle := le_of_next_poll hp hpf (noReset_mono hlt.le hn) hpos hrun hu
    omega
  · obtain ⟨u, hrun, hph, hri, htick⟩ := idle_poll_run hp hpf (noReset_mono (Nat.le_add_left 2 _) hn)
    have hlen : intervalCount Config.values s.spd + 11 = 2 + (8 + (intervalCount Config.values u.spd + 1)) := by
      rw [htick.spd]
      omega
    rw [hlen] at hn hrdy ⊢
    have hready : alwaysReady u 8 := fun k hk => alwaysReady_of_runsTo hrun hrdy k (by omega)
    obtain ⟨t, ht, hpoll, hgame⟩ := render_and_wait_run hph hri (noReset_of_runsTo hrun hn) hready
    have hticked := htick.trans_sameGame hgame
    exact ⟨t, runsTo_trans s u t _ _ hrun ht, hpoll, hticked.ar, hticked.gs, hticked.spd, hticked.rest,
      hticked.active⟩

/-! #### The frame buffer's contract (R51, R52) -/

theorem cell_or (p q : Byte) (c : Idx) : cell (p ||| q) c = (cell p c || cell q c) := by simp [cell]

/-- R12: the pattern of one column. -/
theorem cell_colBit (c d : Idx) : cell (colBit c) d = decide (d = c) := by
  revert c d
  decide

/-- R51: a pattern after `set`. -/
theorem cell_setCol (p : Byte) (c d : Idx) (b : Bool) : cell (setCol p c b) d = if d = c then b else cell p d := by
  rw [setCol, cell_or, cell_and, cell_not, cell_colBit]
  by_cases h : d = c <;> cases b <;> simp [h, cell_colBit]

theorem State.setCell_cellAt (s : State) (r c r' c' : Idx) (b : Bool) :
    (s.setCell r c b).cellAt r' c' = if r' = r ∧ c' = c then b else s.cellAt r' c' := by
  rw [State.setCell, State.cellAt, State.setRow_row]
  by_cases hr : r' = r
  · rw [if_pos hr, cell_setCol, State.cellAt, hr]
    simp
  · rw [if_neg hr, if_neg fun h => hr h.1, State.cellAt]

/-- Settles O37: the cells by `setCell_cellAt` and `clearFb_row`; both primitives are one write of the frame buffer. -/
theorem frameBufferPrimitives : Obligations.FrameBufferPrimitives := by
  refine ⟨fun s r c b => ⟨?_, fun r' c' hne => ?_, ⟨rfl, rfl, rfl, rfl⟩, ⟨rfl, rfl, rfl⟩, ⟨fun _ => rfl, rfl, rfl⟩, rfl,
    rfl, rfl⟩, fun s r c => ?_, fun s => ⟨⟨rfl, rfl, rfl, rfl⟩, ⟨rfl, rfl, rfl⟩, ⟨fun _ => rfl, rfl, rfl⟩, rfl, rfl, rfl⟩⟩
  · rw [State.setCell_cellAt, if_pos ⟨rfl, rfl⟩]
  · rw [State.setCell_cellAt, if_neg fun h => hne.elim (absurd h.1) (absurd h.2)]
  · rw [State.cellAt, State.clearFb_row, cell_zero]

/-! #### The rotation (R145) -/

/-- R145: after `k` rotations column `c` shows column `c + k` modulo 8. -/
theorem cell_rol8_iterate (k : Nat) (p : Byte) (c : Idx) :
    cell (rol8^[k] p) c = cell p ⟨(c.val + k) % 8, by omega⟩ := by
  induction k generalizing c with
  | zero => exact congrArg (cell p) (Fin.ext (Nat.mod_eq_of_lt c.isLt).symm)
  | succ k ih =>
    rw [Function.iterate_succ_apply', cell_rol8, ih]
    exact congrArg (cell p) (Fin.ext (by dsimp only; omega))

/-- R145: "the period is 8". -/
theorem rol8_iterate_eight (p : Byte) : rol8^[8] p = p := by
  rw [eq_iff_cells]
  intro c
  rw [cell_rol8_iterate]
  exact congrArg (cell p) (Fin.ext (by dsimp only; omega))

/-- R145: how often a bar of each width shows as one run and as two, over its eight positions. -/
theorem runCounts_of_spawn (w : Nat) (hpos : 1 ≤ w) (hle : w ≤ 7) :
    ((List.range 8).countP fun k => runCount (rol8^[k] (spawn w)) == 1) = 9 - w ∧
      ((List.range 8).countP fun k => runCount (rol8^[k] (spawn w)) == 2) = w - 1 := by
  interval_cases w <;> decide

/-- Settles O33: a map whose eighth iterate is the identity is a bijection. -/
theorem rotationProperties : Obligations.RotationProperties := by
  refine ⟨fun p q h => ?_, fun q => ⟨rol8^[7] q, ?_⟩, rol8_iterate_eight, popcount_rol8, by decide, by decide,
    runCounts_of_spawn⟩
  · have hseven := congrArg rol8^[7] h
    rwa [← Function.iterate_succ_apply, ← Function.iterate_succ_apply, rol8_iterate_eight, rol8_iterate_eight] at hseven
  · exact (Function.iterate_succ_apply' rol8 7 q).symm.trans (rol8_iterate_eight q)

end Sys2Proof.Machine
